-- ==== Sys2Proof/Word.lean ====
section
/-! DEFINITION. The word types of the Mipot frame core (spec/00_scope.md R9): bytes on the wire and
the 64-bit time base. -/

namespace Sys2Proof

/-- An unsigned 8-bit value, `u8` (R9). -/
abbrev Byte := BitVec 8

/-- A time in `T_UNIT` = 1 microsecond, `u64` (R7 `T_UNIT`, `TIME_W`; R66). -/
abbrev Time := BitVec 64

end Sys2Proof
end

