-- ==== Sys2Proof/Config.lean ====
section
/-! DEFINITION. The implementation parameters of spec/00_scope.md R7: the fixed constants, the OPEN
parameters that a machine carries as data (`Params`), and the free values, which have no body. -/

namespace Sys2Proof
namespace Config

/-! Fixed by the source (R7). -/

/-- `SYNC` (R7, R111). -/
def sync : Byte := 0xAA#8

/-- `REPLY_BIT` (R7). -/
def replyBit : Byte := 0x80#8

/-- `CMD_SET`, the known command codes (R7). -/
def cmdSet : List Byte :=
  [0x30#8, 0x32#8, 0x33#8, 0x34#8, 0x35#8, 0x36#8, 0x40#8, 0x42#8, 0x43#8, 0x46#8, 0x57#8]

/-- `IND_SET`, the indication codes (R7). -/
def indSet : List Byte := [0x41#8, 0x47#8, 0x48#8, 0x49#8]

/-- `REPLY_SET`, the reply codes `c | 0x80` (R8). -/
def replySet : List Byte := cmdSet.map (· ||| replyBit)

/-- `MAX_PAYLOAD` (R7). -/
def maxPayload : Nat := 255

/-- `QUEUE_CAP` (R7). -/
def queueCap : Nat := 32

/-- `MAX_RETRIES_DEFAULT`, what the assembler puts for an absent `retries=` (R7, R124, R125). -/
def maxRetriesDefault : Byte := 8#8

/-- The source's lower bound of `T_RESET_LOW`, 100 ms (R7, R432). -/
def minResetLow : Time := 100000#64

/-- The source's lower bound of `T_SETTLE`, 2 s (R7, R432). -/
def minSettle : Time := 2000000#64

/-! The Transport's line configuration (R88), fixed and outside the block's reach. -/

/-- `BAUD` (R7, R88): 115200 baud, 8 data bits, no parity, 1 stop bit. -/
def baud : Nat := 115200

/-! Free values: the source gives none, and no proof can see one. -/

/-- `CH_PARAMS_OK(freq, dr_min, dr_max)`, the OPEN predicate of R320 (93 U14). -/
opaque chParamsOk : Nat → Nat → Nat → Bool

/-- Whether the port is the first of the two leading bytes of a 0x46 request (R319; 93 U16). -/
opaque txPortFirst : Bool

/-- The selector byte of an unconfirmed 0x46 request; the source shows only the confirmed one (R319). -/
opaque txUnconfirmedSelector : Byte

end Config

/-- `LAST_FRAME_POLICY` (R7, R269). -/
inductive LastFramePolicy where
  /-- An indication updates `corr_last` (the default). -/
  | anyFrame
  /-- Only reply frames update `corr_last`. -/
  | repliesOnly
deriving DecidableEq, Repr

/-- `EXPECTED_LEN[c]` for the commands whose reply length the source leaves OPEN (R7, R310 to R320;
92 D28); `none` is the default. -/
structure ExpectedLens where
  moduleReset : Option Byte
  eepromWrite : Option Byte
  eepromRead : Option Byte
  join : Option Byte
  activationStatus : Option Byte
  appKey : Option Byte
  chParameters : Option Byte
deriving DecidableEq, Repr

/-- The OPEN parameters of R7, fixed for one machine: no step changes them. -/
structure Params where
  /-- `T_OVERRUN` (R192; 92 D8). -/
  tOverrun : Time
  /-- `T_WAKE` (R271; 92 D32). -/
  tWake : Time
  /-- `T_RESET_LOW` (R290, R432). -/
  tResetLow : Time
  /-- `T_SETTLE` (R290, R432). -/
  tSettle : Time
  /-- `LAST_FRAME_POLICY` (R269). -/
  lastFrame : LastFramePolicy
  /-- `EXPECTED_LEN` of the OPEN commands (R7). -/
  expectedLens : ExpectedLens
deriving DecidableEq, Repr

/-- A configuration below the source's bounds is refused before the run (R432; 93 U9). -/
def Params.ok (p : Params) : Bool :=
  decide (Config.minResetLow ≤ p.tResetLow) && decide (Config.minSettle ≤ p.tSettle)

/-- The defaults of R7. `T_OVERRUN` has none: the largest value bounds nothing, so that no run the
spec admits is shut out (DESIGN CHOICE, log entry 3). -/
def Params.default : Params where
  tOverrun := BitVec.allOnes 64
  tWake := 0#64
  tResetLow := Config.minResetLow
  tSettle := Config.minSettle
  lastFrame := .anyFrame
  expectedLens :=
    { moduleReset := none, eepromWrite := none, eepromRead := none, join := none,
      activationStatus := none, appKey := none, chParameters := none }

end Sys2Proof
end

