-- ==== Sys2Proof/Syntax.lean ====
section
/-! DEFINITION. The instructions: one constructor per row of spec/opcode_table.json, that is the 11
host operations (spec/30_encoding.md R122), the 26 named frame CODE values (R116) and the byte 0xAA
(R111, R185). Also the raw host operation record (R120). -/

namespace Sys2Proof

/-- A host operation as the Host presents it: the 96-bit header `H` and the operand bytes `D` (R120).
No meaning is attached to it before it is decoded. -/
structure HostOp where
  header : BitVec 96
  data : List Byte
deriving DecidableEq, Repr

/-- One constructor per row of the opcode table. A host operation carries the operands its row of R122
reads; a frame CODE carries none: it is the one byte. -/
inductive Instr where
  /-- `ENCODE code payload` (R151). -/
  | encode (code : Byte) (payload : List Byte)
  /-- `CHECK bytes` (R156). -/
  | check (bytes : List Byte)
  /-- `SEND code payload` (R158). -/
  | send (code : Byte) (payload : List Byte)
  /-- `RECEIVE timeout [expect]` (R180). -/
  | receive (timeout : BitVec 32) (expect : Option Byte)
  /-- `REQUEST_REPLY cmd timeout [len] retries strict` (R260). -/
  | requestReply (cmd : Byte) (timeout : BitVec 32) (len : Option Byte) (retries : Byte) (strict : Bool)
  /-- `DEQUEUE` (R236). -/
  | dequeue
  /-- `POLL_INDICATION timeout` (R280). -/
  | pollIndication (timeout : BitVec 32)
  /-- `TRANSACTION cmd payload timeout [len] retries strict` (R270). -/
  | transaction (cmd : Byte) (payload : List Byte) (timeout : BitVec 32) (len : Option Byte)
      (retries : Byte) (strict : Bool)
  /-- `WAKEUP` (R286). -/
  | wakeup
  /-- `SLEEP` (R287). -/
  | sleep
  /-- `MODULE_RESET` (R290). -/
  | moduleReset
  /-- CODE 0x30 (R310). -/
  | moduleResetCmdReq
  /-- CODE 0x32 (R311). -/
  | eepromWriteReq
  /-- CODE 0x33 (R312). -/
  | eepromReadReq
  /-- CODE 0x34 (R313). -/
  | getFwVersionReq
  /-- CODE 0x35 (R314). -/
  | getSerialNoReq
  /-- CODE 0x36 (R315). -/
  | getDevEuiReq
  /-- CODE 0x40 (R316). -/
  | joinReq
  /-- CODE 0x42 (R317). -/
  | getActivationStatusReq
  /-- CODE 0x43 (R318). -/
  | setAppKeyReq
  /-- CODE 0x46 (R319). -/
  | txMsgReq
  /-- CODE 0x57 (R320). -/
  | setChParametersReq
  /-- CODE 0xB0 (R310). -/
  | moduleResetCmdReply
  /-- CODE 0xB2 (R311). -/
  | eepromWriteReply
  /-- CODE 0xB3 (R312). -/
  | eepromReadReply
  /-- CODE 0xB4 (R313). -/
  | getFwVersionReply
  /-- CODE 0xB5 (R314). -/
  | getSerialNoReply
  /-- CODE 0xB6 (R315). -/
  | getDevEuiReply
  /-- CODE 0xC0 (R316). -/
  | joinReply
  /-- CODE 0xC2 (R317). -/
  | getActivationStatusReply
  /-- CODE 0xC3 (R318). -/
  | setAppKeyReply
  /-- CODE 0xC6 (R319). -/
  | txMsgReply
  /-- CODE 0xD7 (R320). -/
  | setChParametersReply
  /-- CODE 0x41 (R325). -/
  | joinResultInd
  /-- CODE 0x47 (R326). -/
  | confirmedTxResultInd
  /-- CODE 0x48 (R327). -/
  | unconfirmedTxResultInd
  /-- CODE 0x49 (R328). -/
  | rxMsgInd
  /-- The byte 0xAA: SYNC in HUNT_SYNC, filler in HUNT_CODE (R111, R184, R185). -/
  | syncFiller
deriving DecidableEq, Repr

/-- Where an instruction is fetched: the host port (R120) or the RX stream (R85). -/
inductive Port where
  | host
  | rx
deriving DecidableEq, Repr

end Sys2Proof
end

