-- ==== Sys2Proof/WellFormed.lean ====
section
/-! DEFINITION. Which terms are instructions and operations of the spec: operand byte strings fit the
16-bit `PLEN` field, and a presented operation carries exactly `PLEN` operand bytes
(spec/30_encoding.md R120). -/

namespace Sys2Proof

/-- A byte string whose length the 16-bit field `PLEN` can hold (R120: 0 to 65535). -/
def fitsPlen (d : List Byte) : Bool := decide (d.length < 65536)

/-- An instruction that some host word or frame byte stands for. -/
def Instr.wf : Instr → Bool
  | .encode _ p => fitsPlen p
  | .check d => fitsPlen d
  | .send _ p => fitsPlen p
  | .receive _ _ => true
  | .requestReply _ _ _ _ _ => true
  | .dequeue => true
  | .pollIndication _ => true
  | .transaction _ p _ _ _ _ => fitsPlen p
  | .wakeup => true
  | .sleep => true
  | .moduleReset => true
  | .moduleResetCmdReq => true
  | .eepromWriteReq => true
  | .eepromReadReq => true
  | .getFwVersionReq => true
  | .getSerialNoReq => true
  | .getDevEuiReq => true
  | .joinReq => true
  | .getActivationStatusReq => true
  | .setAppKeyReq => true
  | .txMsgReq => true
  | .setChParametersReq => true
  | .moduleResetCmdReply => true
  | .eepromWriteReply => true
  | .eepromReadReply => true
  | .getFwVersionReply => true
  | .getSerialNoReply => true
  | .getDevEuiReply => true
  | .joinReply => true
  | .getActivationStatusReply => true
  | .setAppKeyReply => true
  | .txMsgReply => true
  | .setChParametersReply => true
  | .joinResultInd => true
  | .confirmedTxResultInd => true
  | .unconfirmedTxResultInd => true
  | .rxMsgInd => true
  | .syncFiller => true

/-- The `PLEN` field of the raw header, `H[55:40]` (R120). -/
def HostOp.plen (op : HostOp) : Nat := (op.header.extractLsb' 40 16).toNat

/-- The operation carries exactly the `PLEN` operand bytes that its header announces (R120). -/
def HostOp.wf (op : HostOp) : Bool := decide (op.data.length = op.plen)

end Sys2Proof
end

