-- ==== Sys2Proof/Decode.lean ====
section
/-! DEFINITION. The two encodings of spec/30_encoding.md: the host operation word (R120 to R124) and the
CODE map of the wire frame (R112, R116). First the decoder, which rejects by name, then the encoder. -/

namespace Sys2Proof

/-! ## Byte order -/

/-- `le_uN(s)`, the unsigned little-endian value of a byte string (R10, R82). -/
def leNat : List Byte → Nat
  | [] => 0
  | b :: bs => b.toNat + 256 * leNat bs

/-- The `n` low bytes of a number, least significant first: the inverse of `leNat`. -/
def leBytes : Nat → Nat → List Byte
  | 0, _ => []
  | n + 1, w => BitVec.ofNat 8 w :: leBytes n (w / 256)

/-! ## The host operation header -/

/-- The fields of the 96-bit header `H` (R120). -/
structure Header where
  op : Byte
  code : Byte
  cv : Bool
  lv : Bool
  strict : Bool
  /-- `H[23:19]`, must be 0. -/
  rsvdLo : BitVec 5
  expLen : Byte
  maxRetries : Byte
  plen : BitVec 16
  /-- `H[63:56]`, must be 0. -/
  rsvdHi : Byte
  timeout : BitVec 32
deriving DecidableEq, Repr

/-- The fields at their bit places (R120). -/
def Header.ofBits (h : BitVec 96) : Header where
  op := h.extractLsb' 0 8
  code := h.extractLsb' 8 8
  cv := h.getLsbD 16
  lv := h.getLsbD 17
  strict := h.getLsbD 18
  rsvdLo := h.extractLsb' 19 5
  expLen := h.extractLsb' 24 8
  maxRetries := h.extractLsb' 32 8
  plen := h.extractLsb' 40 16
  rsvdHi := h.extractLsb' 56 8
  timeout := h.extractLsb' 64 32

/-- The 96 bits of a header, most significant field first (R120). -/
def Header.toBits (h : Header) : BitVec 96 :=
  h.timeout ++ h.rsvdHi ++ h.plen ++ h.maxRetries ++ h.expLen ++ h.rsvdLo ++ BitVec.ofBool h.strict
    ++ BitVec.ofBool h.lv ++ BitVec.ofBool h.cv ++ h.code ++ h.op

/-- The header with every field zero. -/
def Header.zero : Header where
  op := 0#8
  code := 0#8
  cv := false
  lv := false
  strict := false
  rsvdLo := 0#5
  expLen := 0#8
  maxRetries := 0#8
  plen := 0#16
  rsvdHi := 0#8
  timeout := 0#32

/-- The operation selectors of R122. -/
inductive Selector where
  | encode | check | send | receive | requestReply | dequeue | pollIndication | transaction
  | wakeup | sleep | moduleReset
deriving DecidableEq, Repr

/-- The selector table of R122. -/
def selectorTable : List (Byte × Selector) :=
  [(0x01#8, .encode), (0x02#8, .check), (0x03#8, .send), (0x04#8, .receive), (0x05#8, .requestReply),
   (0x06#8, .dequeue), (0x07#8, .pollIndication), (0x08#8, .transaction), (0x09#8, .wakeup),
   (0x0A#8, .sleep), (0x0B#8, .moduleReset)]

/-- The one-bit fields and the operand bytes that an operation's row of R122 reads. -/
structure Reads where
  cv : Bool
  lv : Bool
  strict : Bool
  data : Bool
deriving DecidableEq, Repr

/-- The column "reads" of R122. -/
def Selector.reads : Selector → Reads
  | .encode => { cv := false, lv := false, strict := false, data := true }
  | .check => { cv := false, lv := false, strict := false, data := true }
  | .send => { cv := false, lv := false, strict := false, data := true }
  | .receive => { cv := true, lv := false, strict := false, data := false }
  | .requestReply => { cv := false, lv := true, strict := true, data := false }
  | .dequeue => { cv := false, lv := false, strict := false, data := false }
  | .pollIndication => { cv := false, lv := false, strict := false, data := false }
  | .transaction => { cv := false, lv := true, strict := true, data := true }
  | .wakeup => { cv := false, lv := false, strict := false, data := false }
  | .sleep => { cv := false, lv := false, strict := false, data := false }
  | .moduleReset => { cv := false, lv := false, strict := false, data := false }

/-- Why a word is no instruction. -/
inductive DecodeError where
  /-- `OP` is 0x00 or 0x0C to 0xFF (R123 a): an illegal host operation. -/
  | badSelector (op : Byte)
  /-- A reserved bit of `H` is 1 (R123 b): an illegal host operation. -/
  | reservedBit
  /-- `CV`, `LV` or `STRICT` is 1 and the row does not read it (R123 c): an illegal host operation. -/
  | flagNotRead
  /-- `PLEN ≠ 0` and the row does not read `D` (R123 d): an illegal host operation. -/
  | operandBytesNotRead
  /-- The record does not carry `PLEN` operand bytes: no record of R120 at all. -/
  | operandLength
  /-- The byte string ends inside the header or the operand bytes. -/
  | truncated
  /-- A byte of class UNKNOWN in the CODE map (R112, R116): no named code. -/
  | unknownCode (b : Byte)
deriving DecidableEq, Repr

/-- The illegal host operations of R123, which the block answers with `ILLEGAL_OP`. -/
def DecodeError.isIllegalOp : DecodeError → Bool
  | .badSelector _ => true
  | .reservedBit => true
  | .flagNotRead => true
  | .operandBytesNotRead => true
  | .operandLength => false
  | .truncated => false
  | .unknownCode _ => false

/-- `CV ? Some(CODE) : None`, and the same for `LV` and `EXP_LEN` (R124). -/
def optionField (valid : Bool) (v : Byte) : Option Byte := if valid then some v else none

/-- The instruction of a legal header and its operand bytes (R122, R124). -/
def Selector.build (sel : Selector) (h : Header) (d : List Byte) : Instr :=
  match sel with
  | .encode => .encode h.code d
  | .check => .check d
  | .send => .send h.code d
  | .receive => .receive h.timeout (optionField h.cv h.code)
  | .requestReply => .requestReply h.code h.timeout (optionField h.lv h.expLen) h.maxRetries h.strict
  | .dequeue => .dequeue
  | .pollIndication => .pollIndication h.timeout
  | .transaction => .transaction h.code d h.timeout (optionField h.lv h.expLen) h.maxRetries h.strict
  | .wakeup => .wakeup
  | .sleep => .sleep
  | .moduleReset => .moduleReset

/-- A one-bit field is set that the row does not read (R123 c). -/
def Header.setsUnreadFlag (h : Header) (r : Reads) : Bool :=
  (h.cv && !r.cv) || (h.lv && !r.lv) || (h.strict && !r.strict)

/-- The instruction a presented host operation stands for (R120 to R124). -/
def decodeOp (o : HostOp) : Except DecodeError Instr :=
  let h := Header.ofBits o.header
  if o.data.length ≠ h.plen.toNat then .error .operandLength
  else
    match selectorTable.lookup h.op with
    | none => .error (.badSelector h.op)
    | some sel =>
      if h.rsvdLo ≠ 0#5 ∨ h.rsvdHi ≠ 0#8 then .error .reservedBit
      else if h.setsUnreadFlag sel.reads then .error .flagNotRead
      else if h.plen ≠ 0#16 ∧ sel.reads.data = false then .error .operandBytesNotRead
      else .ok (sel.build h o.data)

/-- One host operation off a byte string: the 12 header bytes, least significant first, then `PLEN`
operand bytes (R120; the byte order of the header is log entry 5). -/
def takeHostOp (bs : List Byte) : Except DecodeError (HostOp × List Byte) :=
  if bs.length < 12 then .error .truncated
  else
    let h := BitVec.ofNat 96 (leNat (bs.take 12))
    let plen := (Header.ofBits h).plen.toNat
    let rest := bs.drop 12
    if rest.length < plen then .error .truncated
    else .ok ({ header := h, data := rest.take plen }, rest.drop plen)

/-! ## The CODE map -/

/-- The named CODE values and the SYNC value (R116). -/
def codeTable : List (Byte × Instr) :=
  [(0x30#8, .moduleResetCmdReq), (0x32#8, .eepromWriteReq), (0x33#8, .eepromReadReq),
   (0x34#8, .getFwVersionReq), (0x35#8, .getSerialNoReq), (0x36#8, .getDevEuiReq),
   (0x40#8, .joinReq), (0x42#8, .getActivationStatusReq), (0x43#8, .setAppKeyReq),
   (0x46#8, .txMsgReq), (0x57#8, .setChParametersReq),
   (0xB0#8, .moduleResetCmdReply), (0xB2#8, .eepromWriteReply), (0xB3#8, .eepromReadReply),
   (0xB4#8, .getFwVersionReply), (0xB5#8, .getSerialNoReply), (0xB6#8, .getDevEuiReply),
   (0xC0#8, .joinReply), (0xC2#8, .getActivationStatusReply), (0xC3#8, .setAppKeyReply),
   (0xC6#8, .txMsgReply), (0xD7#8, .setChParametersReply),
   (0x41#8, .joinResultInd), (0x47#8, .confirmedTxResultInd), (0x48#8, .unconfirmedTxResultInd),
   (0x49#8, .rxMsgInd), (0xAA#8, .syncFiller)]

/-- The instruction a CODE byte stands for (R116); the 229 other values are UNKNOWN (R117). -/
def decodeCode (b : Byte) : Except DecodeError Instr :=
  match codeTable.lookup b with
  | some i => .ok i
  | none => .error (.unknownCode b)

/-- The classes of a CODE byte (R112). -/
inductive CodeClass where
  | syncValue
  | indication
  | reply
  | command
  | unknown
deriving DecidableEq, Repr

/-- `class(b)` (R112). -/
def classOf (b : Byte) : CodeClass :=
  if b = Config.sync then .syncValue
  else if Config.indSet.contains b then .indication
  else if b.getLsbD 7 && Config.cmdSet.contains (b &&& 0x7F#8) then .reply
  else if Config.cmdSet.contains b then .command
  else .unknown

/-! ## The decoder over bytes -/

/-- One instruction off the bytes of a port, with the bytes that follow it. -/
def decode (p : Port) (bs : List Byte) : Except DecodeError (Instr × List Byte) :=
  match p with
  | .host =>
    match takeHostOp bs with
    | .error e => .error e
    | .ok (o, rest) =>
      match decodeOp o with
      | .error e => .error e
      | .ok i => .ok (i, rest)
  | .rx =>
    match bs with
    | [] => .error .truncated
    | b :: rest =>
      match decodeCode b with
      | .error e => .error e
      | .ok i => .ok (i, rest)

/-! ## The encoder -/

/-- The header of an instruction of the host port, its unread fields zero (R120, R125); `none` for a
frame CODE. -/
def Instr.header : Instr → Option Header
  | .encode c p => some { Header.zero with op := 0x01#8, code := c, plen := BitVec.ofNat 16 p.length }
  | .check d => some { Header.zero with op := 0x02#8, plen := BitVec.ofNat 16 d.length }
  | .send c p => some { Header.zero with op := 0x03#8, code := c, plen := BitVec.ofNat 16 p.length }
  | .receive t e =>
    some { Header.zero with op := 0x04#8, code := e.getD 0#8, cv := e.isSome, timeout := t }
  | .requestReply c t n m st =>
    some { Header.zero with op := 0x05#8, code := c, lv := n.isSome, strict := st,
                            expLen := n.getD 0#8, maxRetries := m, timeout := t }
  | .dequeue => some { Header.zero with op := 0x06#8 }
  | .pollIndication t => some { Header.zero with op := 0x07#8, timeout := t }
  | .transaction c p t n m st =>
    some { Header.zero with op := 0x08#8, code := c, lv := n.isSome, strict := st,
                            expLen := n.getD 0#8, maxRetries := m,
                            plen := BitVec.ofNat 16 p.length, timeout := t }
  | .wakeup => some { Header.zero with op := 0x09#8 }
  | .sleep => some { Header.zero with op := 0x0A#8 }
  | .moduleReset => some { Header.zero with op := 0x0B#8 }
  | .moduleResetCmdReq | .eepromWriteReq | .eepromReadReq | .getFwVersionReq | .getSerialNoReq
  | .getDevEuiReq | .joinReq | .getActivationStatusReq | .setAppKeyReq | .txMsgReq
  | .setChParametersReq | .moduleResetCmdReply | .eepromWriteReply | .eepromReadReply
  | .getFwVersionReply | .getSerialNoReply | .getDevEuiReply | .joinReply
  | .getActivationStatusReply | .setAppKeyReply | .txMsgReply | .setChParametersReply
  | .joinResultInd | .confirmedTxResultInd | .unconfirmedTxResultInd | .rxMsgInd
  | .syncFiller => none

/-- The operand bytes of an instruction (R120: the payload, or the string CHECK tests). -/
def Instr.operandBytes : Instr → List Byte
  | .encode _ p => p
  | .check d => d
  | .send _ p => p
  | .transaction _ p _ _ _ _ => p
  | .receive _ _ | .requestReply _ _ _ _ _ | .dequeue | .pollIndication _ | .wakeup | .sleep
  | .moduleReset | .moduleResetCmdReq | .eepromWriteReq | .eepromReadReq | .getFwVersionReq
  | .getSerialNoReq | .getDevEuiReq | .joinReq | .getActivationStatusReq | .setAppKeyReq
  | .txMsgReq | .setChParametersReq | .moduleResetCmdReply | .eepromWriteReply
  | .eepromReadReply | .getFwVersionReply | .getSerialNoReply | .getDevEuiReply | .joinReply
  | .getActivationStatusReply | .setAppKeyReply | .txMsgReply | .setChParametersReply
  | .joinResultInd | .confirmedTxResultInd | .unconfirmedTxResultInd | .rxMsgInd
  | .syncFiller => []

/-- The CODE byte of a frame instruction (R116); `none` for a host operation. -/
def Instr.codeByte : Instr → Option Byte
  | .moduleResetCmdReq => some 0x30#8
  | .eepromWriteReq => some 0x32#8
  | .eepromReadReq => some 0x33#8
  | .getFwVersionReq => some 0x34#8
  | .getSerialNoReq => some 0x35#8
  | .getDevEuiReq => some 0x36#8
  | .joinReq => some 0x40#8
  | .getActivationStatusReq => some 0x42#8
  | .setAppKeyReq => some 0x43#8
  | .txMsgReq => some 0x46#8
  | .setChParametersReq => some 0x57#8
  | .moduleResetCmdReply => some 0xB0#8
  | .eepromWriteReply => some 0xB2#8
  | .eepromReadReply => some 0xB3#8
  | .getFwVersionReply => some 0xB4#8
  | .getSerialNoReply => some 0xB5#8
  | .getDevEuiReply => some 0xB6#8
  | .joinReply => some 0xC0#8
  | .getActivationStatusReply => some 0xC2#8
  | .setAppKeyReply => some 0xC3#8
  | .txMsgReply => some 0xC6#8
  | .setChParametersReply => some 0xD7#8
  | .joinResultInd => some 0x41#8
  | .confirmedTxResultInd => some 0x47#8
  | .unconfirmedTxResultInd => some 0x48#8
  | .rxMsgInd => some 0x49#8
  | .syncFiller => some 0xAA#8
  | .encode _ _ | .check _ | .send _ _ | .receive _ _ | .requestReply _ _ _ _ _ | .dequeue
  | .pollIndication _ | .transaction _ _ _ _ _ _ | .wakeup | .sleep | .moduleReset => none

/-- The port an instruction is fetched from. -/
def Instr.port (i : Instr) : Port := if i.codeByte.isSome then .rx else .host

/-- The host operation record of an instruction of the host port (R120). -/
def encodeOp (i : Instr) : Option HostOp :=
  i.header.map fun h => { header := h.toBits, data := i.operandBytes }

/-- The bytes of an instruction: the header's 12 bytes and the operand bytes, or the one CODE byte. -/
def encode (i : Instr) : List Byte :=
  match encodeOp i with
  | some o => leBytes 12 o.header.toNat ++ o.data
  | none => i.codeByte.toList

/-! ## The opcode table's words -/

/-- The port and the bytes of a table word: a word of at most 8 bits that is a named CODE byte is that
byte on the RX stream, and every other word is a host operation, its header first and then the bits
above it, as many operand bytes as its `PLEN` announces. -/
def tableWordBytes (nbits w : Nat) : Port × List Byte :=
  let v := w % 2 ^ nbits
  if nbits ≤ 8 ∧ (codeTable.lookup (BitVec.ofNat 8 v)).isSome then (.rx, [BitVec.ofNat 8 v])
  else (.host, leBytes (12 + (v / 2 ^ 40) % 65536) v)

/-- The instruction the decoder reads from a word of the opcode table, `none` where it refuses. -/
def decodeTableWord (nbits w : Nat) : Option Instr :=
  let (p, bs) := tableWordBytes nbits w
  match decode p bs with
  | .ok (i, _) => some i
  | .error _ => none

end Sys2Proof
end

