-- ==== Sys2Proof/Machine/State.lean ====
section
/-! DEFINITION. The whole state of the machine (spec/10_state.md): the tuple of R30 (host port, result
register, RSM registers, queue, correlator registers, controller phase, pins, module-reset sequencer),
the environment's state that the block reads or appends to (R30, R66 to R68), the parameters of R7,
and the event history that the model records (spec/41_receive.md R198). Plain data throughout. -/

namespace Sys2Proof
namespace Machine

/-! ## Frames and results -/

/-- A DecodedFrame (R40). -/
structure DecodedFrame where
  code : Byte
  length : Byte
  payload : List Byte
deriving DecidableEq, Repr

/-- The invariant of R40: `len(payload) = length`. -/
def DecodedFrame.wf (f : DecodedFrame) : Bool := decide (f.payload.length = f.length.toNat)

/-- The value a frame slot holds at reset, where R70 gives none (DESIGN CHOICE, log entry 1). -/
def DecodedFrame.zero : DecodedFrame := { code := 0#8, length := 0#8, payload := [] }

/-- The status codes of R370, all of them; `invalidArgument` is the Façade's and the block never
writes it. -/
inductive Status where
  | ok
  | timedOut
  | noReplyAfterRetries
  | invalidArgument
  | payloadTooLarge
  | empty
  | illegalOp
deriving DecidableEq, Repr

/-- The result register (R32). `status` is the raw `u8`; `frame` is `none` where the operation names
no frame, R32's empty value `None`. -/
structure Result where
  status : BitVec 8
  frameValid : Bool
  frame : Option DecodedFrame
  isIndication : Bool
  matched : Bool
  checkOk : Bool
  out : List Byte
deriving DecidableEq, Repr

/-- Every field at its "empty" value (R32), and the reset value of `result` (R70; the frame, which R70
leaves unspecified, is `None`: DESIGN CHOICE, log entry 1). -/
def Result.empty : Result where
  status := 0x00#8
  frameValid := false
  frame := none
  isIndication := false
  matched := false
  checkOk := false
  out := []

/-! ## Registers of the block -/

/-- The host port (R31). -/
structure HostPort where
  /-- `op_busy`. -/
  busy : Bool
  /-- `cur_op`, meaningful only while `busy`. -/
  curOp : HostOp
  /-- `result`. -/
  result : Result
  /-- `result_valid`. -/
  resultValid : Bool
deriving DecidableEq, Repr

/-- `rsm_phase` (R41). The values 5 to 7 of the 3-bit register are never reached and have no
constructor (log entry 7). -/
inductive RsmPhase where
  /-- 0 `R_IDLE`. -/
  | idle
  /-- 1 `HUNT_SYNC`. -/
  | huntSync
  /-- 2 `HUNT_CODE`. -/
  | huntCode
  /-- 3 `READ_LEN`. -/
  | readLen
  /-- 4 `READ_BODY`. -/
  | readBody
deriving DecidableEq, Repr

/-- The register value of a phase (R41). -/
def RsmPhase.bits : RsmPhase → BitVec 3
  | .idle => 0#3
  | .huntSync => 1#3
  | .huntCode => 2#3
  | .readLen => 3#3
  | .readBody => 4#3

/-- The Receive State Machine's registers (R41 to R48). -/
structure Rsm where
  /-- `rsm_phase` (R41). -/
  phase : RsmPhase
  /-- `rsm_expected` (R42). -/
  expected : Option Byte
  /-- `rsm_deadline` (R43). -/
  deadline : Time
  /-- `rsm_code` (R44). -/
  code : Byte
  /-- `rsm_len` (R45). -/
  len : Byte
  /-- `rsm_sum` (R46). -/
  sum : Byte
  /-- `rsm_count` (R47). -/
  count : BitVec 9
  /-- `rsm_buf` (R48). -/
  buf : Vector Byte 255
deriving DecidableEq, Repr

/-- The Indication Queue (R50 to R52). -/
structure Queue where
  /-- `q_entry[0..31]`. -/
  entry : Vector DecodedFrame 32
  /-- `q_head`. -/
  head : BitVec 5
  /-- `q_count`. -/
  count : BitVec 6
deriving DecidableEq, Repr

/-- `ctl_phase` (R55). The values 7 to 15 of the 4-bit register are never reached and have no
constructor (log entry 7). -/
inductive CtlPhase where
  /-- 0 `CTL_IDLE`. -/
  | idle
  /-- 1 `CTL_RECEIVE`. -/
  | receive
  /-- 2 `CTL_RR_ATTEMPT`. -/
  | rrAttempt
  /-- 3 `CTL_TR_WAKE`. -/
  | trWake
  /-- 4 `CTL_POLL_RECEIVE`. -/
  | pollReceive
  /-- 5 `CTL_MR_LOW`. -/
  | mrLow
  /-- 6 `CTL_MR_SETTLE`. -/
  | mrSettle
deriving DecidableEq, Repr

/-- The register value of a phase (R55). -/
def CtlPhase.bits : CtlPhase → BitVec 4
  | .idle => 0#4
  | .receive => 1#4
  | .rrAttempt => 2#4
  | .trWake => 3#4
  | .pollReceive => 4#4
  | .mrLow => 5#4
  | .mrSettle => 6#4

/-- The correlator registers (R56). -/
structure Corr where
  /-- `corr_cmd`. -/
  cmd : Byte
  /-- `corr_exp_len`. -/
  expLen : Option Byte
  /-- `corr_timeout`. -/
  timeout : BitVec 32
  /-- `corr_remaining`. -/
  remaining : Byte
  /-- `corr_strict`. -/
  strict : Bool
  /-- `corr_last`. -/
  last : Option DecodedFrame
  /-- `corr_ctx`: false for REQUEST_REPLY, true for TRANSACTION. -/
  ctx : Bool
deriving DecidableEq, Repr

/-- The output pins (R61, R62). -/
structure Pins where
  /-- `wake_n`: low (false) is Awake (R60, R61). -/
  wakeN : Bool
  /-- `reset_n`: low (false) asserts the module's reset (R62). -/
  resetN : Bool
deriving DecidableEq, Repr

/-! ## Environment -/

/-- One turn of an agent of R6, on the agenda (R6; 93 U7; log entry 2). -/
inductive Turn where
  /-- The Core takes its enabled step, if it has one. -/
  | core
  /-- The Host presents an operation (R121). -/
  | host (op : HostOp)
  /-- The Transport appends a received byte with its arrival time (R67; `RX @<time>:` of R125). -/
  | rx (b : Byte) (arrival : Time)
  /-- The Transport takes the oldest byte of the TX stream (R68). -/
  | txTake
  /-- Time sets `now` forward (R66; `TIME <t>` of R125). -/
  | time (t : Nat)
  /-- The reset input `rst` is asserted (R420). -/
  | rst
deriving DecidableEq, Repr

/-- The environment's state (R30, R66 to R68), and what it will do next. -/
structure Env where
  /-- `now` (R66). -/
  now : Time
  /-- The RX stream: bytes with their arrival times, oldest first (R67). -/
  rx : List (Byte × Time)
  /-- The arrival time of the last byte appended to the RX stream, which the Core may have popped since (R67:
  arrival times never decrease along the sequence); 0 while none has been. -/
  lastArrival : Time
  /-- The TX stream: bytes written and not yet taken, oldest first (R68). -/
  tx : List Byte
  /-- The bytes the Transport has taken off the TX stream, oldest first (R68, R424). -/
  txTaken : List Byte
  /-- The operations the Host presents, in order: the first is the one held at the port (R121). -/
  hostQueue : List HostOp
  /-- Which agent moves next and how; when empty, the Core moves (log entry 2). -/
  agenda : List Turn
deriving DecidableEq, Repr

/-! ## The model's history -/

/-- The internal events of R198 and R231. -/
inductive Event where
  | discard (b : Byte)
  | filler
  | unexpectedByte (b : Byte)
  | checksumMismatch
  | timeout (phase : RsmPhase)
  | queueDrop (f : DecodedFrame)
deriving DecidableEq, Repr

/-- The two output pins. -/
inductive Pin where
  | wake
  | reset
deriving DecidableEq, Repr

/-- A change of a pin's level, with its time (R424). -/
structure PinChange where
  pin : Pin
  level : Bool
  time : Time
deriving DecidableEq, Repr

/-- What the model records, oldest first: the event history (R198), and the results and the pin changes
that R424 makes observable. No rule reads it; it is no block state (R198, R383). -/
structure Log where
  events : List Event
  results : List Result
  pins : List PinChange
deriving DecidableEq, Repr

/-! ## The state -/

/-- The machine: the block of R30, its environment, its parameters and the model's history. -/
structure State where
  /-- Host port and result register (R31, R32). -/
  host : HostPort
  /-- RSM registers (R41 to R48). -/
  rsm : Rsm
  /-- Indication queue (R50 to R53). -/
  queue : Queue
  /-- `ctl_phase` (R55). -/
  ctl : CtlPhase
  /-- Correlator registers (R56). -/
  corr : Corr
  /-- `mr_until` (R57). -/
  mrUntil : Time
  /-- `tw_until` (R57). -/
  twUntil : Time
  /-- Pins (R61, R62). -/
  pins : Pins
  /-- Environment (R66 to R68). -/
  env : Env
  /-- Parameters (R7). -/
  params : Params
  /-- The model's history (R198, R424). -/
  log : Log
deriving DecidableEq, Repr

/-- Why the machine stops: states that no run reaches. -/
inductive Fault where
  /-- An RSM outcome in a controller phase that started no receive. R195 says the RSM is never running
  then and names no receiver. Raised by `deliver`. Safe: unreachable (Obligations.CoreNeverFaults). -/
  | rsmWithoutOwner
  /-- A receive phase of the controller with the RSM at `R_IDLE`, which R55 excludes. Raised by
  `receivePhaseStep`. Safe: unreachable. -/
  | receiveWithoutRsm
  /-- `CTL_TR_WAKE` while `cur_op` is no TRANSACTION, which R55 excludes. Raised by
  `transactionTransmit`. Safe: unreachable. -/
  | wakeWithoutTransaction
deriving DecidableEq, Repr

/-- Why the model refuses: runs and configurations that the spec itself refuses, and environment moves
that the spec excludes. -/
inductive Refusal where
  /-- An instruction whose meaning is not written yet. Safe. -/
  | notModelled (mnemonic : String)
  /-- `now + timeout`, or another computed time, would pass 2^64 - 1: the model refuses the run (R66,
  R182; 93 U10). Raised where a time is computed. Safe. -/
  | deadlineOverflow
  /-- Time would carry `now` past 2^64 - 1 (R66; 93 U10). Raised by the Time agent's turn. Safe. -/
  | clockOverflow
  /-- Time would go backwards, which R66 excludes. Raised by the Time agent's turn. Safe. -/
  | timeBackwards
  /-- A timeout would be reported later than `T_OVERRUN` after its deadline, which R192 excludes.
  Raised by the Time agent's turn and by the timeout step. Safe. -/
  | timeoutOverdue
  /-- A received byte whose arrival time is later than `now` or earlier than that of the last byte appended,
  popped or not, which R67 excludes. Raised by the Transport's turn. Safe. -/
  | arrivalOutOfOrder
  /-- An operation without its `PLEN` operand bytes, no record of R120. Raised by the Host's turn (and,
  in states no run reaches, by the Core). Safe. -/
  | malformedHostOp
  /-- `T_RESET_LOW` or `T_SETTLE` below the source's bound: the configuration is refused (R432; 93
  U9). Raised by `step`. Safe. -/
  | configuration
deriving DecidableEq, Repr

/-- The RSM registers at reset. `rsm_phase` is R70's; R70 leaves the others unspecified (zero: DESIGN
CHOICE, log entry 1). -/
def Rsm.reset : Rsm where
  phase := .idle
  expected := none
  deadline := 0#64
  code := 0#8
  len := 0#8
  sum := 0#8
  count := 0#9
  buf := Vector.replicate 255 0#8

/-- The queue at reset: empty (R70). The slots, unspecified there, hold the zero frame (DESIGN CHOICE,
log entry 1). -/
def Queue.reset : Queue where
  entry := Vector.replicate 32 DecodedFrame.zero
  head := 0#5
  count := 0#6

/-- The correlator registers at reset, unspecified in R70 (zero: DESIGN CHOICE, log entry 1). -/
def Corr.reset : Corr where
  cmd := 0#8
  expLen := none
  timeout := 0#32
  remaining := 0#8
  strict := false
  last := none
  ctx := false

/-- The host port at reset (R70); `cur_op`, unspecified there, is zero (DESIGN CHOICE, log entry 1). -/
def HostPort.reset : HostPort where
  busy := false
  curOp := { header := 0#96, data := [] }
  result := Result.empty
  resultValid := false

/-- The pins at reset: both high (R70). -/
def Pins.reset : Pins where
  wakeN := true
  resetN := true

/-- The machine right after reset (R70, R422), in an environment in which nothing has happened: `now`
is 0, the streams are empty and the Host presents nothing (DESIGN CHOICE, log entry 4: the block's
reset does not set the environment, R420). -/
def State.reset : State where
  host := HostPort.reset
  rsm := Rsm.reset
  queue := Queue.reset
  ctl := .idle
  corr := Corr.reset
  mrUntil := 0#64
  twUntil := 0#64
  pins := Pins.reset
  env := { now := 0#64, rx := [], lastArrival := 0#64, tx := [], txTaken := [], hostQueue := [], agenda := [] }
  params := Params.default
  log := { events := [], results := [], pins := [] }

end Machine
end Sys2Proof
end

