-- ==== Sys2Proof/Machine/Flags.lean ====
section
/-! DEFINITION. The status codes (spec/60_exceptions.md R370), the derived flags (spec/10_state.md R33,
R34, R53), the acceptance predicate of HUNT_CODE (spec/41_receive.md R186) and the checksum arithmetic
(spec/40_codec.md R150). -/

namespace Sys2Proof
namespace Machine

/-- The register value of a status (R370). -/
def Status.code : Status → BitVec 8
  | .ok => 0x00#8
  | .timedOut => 0x01#8
  | .noReplyAfterRetries => 0x02#8
  | .invalidArgument => 0x03#8
  | .payloadTooLarge => 0x04#8
  | .empty => 0x05#8
  | .illegalOp => 0x06#8

/-- `is_indication(code) = (code ∈ IND_SET)` (R34). -/
def isIndication (code : Byte) : Bool := Config.indSet.contains code

/-- A reply to a known command: `b[7] = 1 and (b & 0x7F) ∈ CMD_SET` (R112, R186). -/
def isKnownReply (b : Byte) : Bool := b.getLsbD 7 && Config.cmdSet.contains (b &&& 0x7F#8)

/-- `code_ok(b, expected)`, for a byte read in HUNT_CODE that is not 0xAA (R186). -/
def codeOk (b : Byte) : Option Byte → Bool
  | some c => b == c || isIndication b
  | none => isKnownReply b || isIndication b

/-- `empty` (R53). -/
def Queue.isEmpty (q : Queue) : Bool := q.count == 0#6

/-- `full` (R53). -/
def Queue.isFull (q : Queue) : Bool := q.count == BitVec.ofNat 6 Config.queueCap

/-- `sum8(s)` (R150). -/
def sum8 : List Byte → Byte
  | [] => 0#8
  | b :: s => b + sum8 s

/-- `checksum(s)`: the two's-complement negation of the 8-bit sum (R114, R150). -/
def checksum (s : List Byte) : Byte := ((sum8 s ^^^ 0xFF#8) + 1#8) &&& 0xFF#8

end Machine
end Sys2Proof
end

