-- ==== Sys2Proof/Machine/Operands.lean ====
section
/-! DEFINITION. The operand forms of the host operations (spec/30_encoding.md R124), the payload-size
check (spec/40_codec.md R152), the wire frame of a code and a payload (R110, R153), and times computed
from an operand (spec/41_receive.md R182). -/

namespace Sys2Proof
namespace Machine

/-- `timeout = zext_64(TIMEOUT)` (R124). -/
def timeoutTime (t : BitVec 32) : Time := t.setWidth 64

/-- The expected code of the reply to a command: `corr_cmd | 0x80` (R56, R261). -/
def replyCode (cmd : Byte) : Byte := cmd ||| Config.replyBit

/-- The payload-size check `len(p) > 255` (R152). -/
def payloadTooLarge (p : List Byte) : Bool := decide (Config.maxPayload < p.length)

/-- The three header bytes of a frame, `[0xAA, c, len(p)]` (R110, R153). -/
def frameHeader (c : Byte) (p : List Byte) : List Byte := [Config.sync, c, BitVec.ofNat 8 p.length]

/-- `frame(c, p)` for `len(p) ≤ 255` (R153). -/
def frame (c : Byte) (p : List Byte) : List Byte :=
  frameHeader c p ++ p ++ [checksum (frameHeader c p ++ p)]

/-- `t + d` in 64-bit unsigned arithmetic, `none` where it would pass 2^64 - 1 (R182; 93 U10). -/
def addTime (t d : Time) : Option Time :=
  if t.toNat + d.toNat < 2 ^ 64 then some (t + d) else none

end Machine
end Sys2Proof
end

