-- ==== Sys2Proof/Machine/Ops.lean ====
section
/-! DEFINITION. The pseudocode primitives of spec/00_scope.md R10 over the state, the ENQUEUE and pop
micro-operations of the queue (spec/42_queue.md), starting a receive (spec/41_receive.md R181, R182),
ending an operation with a status (R10 `raise`), and the block reset (spec/70_reset_and_hazards.md
R420). The block has no trap and no return from one (R373, R374): `raise` is the one way an operation
reports an error. -/

namespace Sys2Proof
namespace Machine

/-! ## Buffers -/

/-- `MemRead(buf, i, n)`: bytes `i .. i+n-1` in index order (R80). -/
def memRead (buf : Vector Byte 255) (i n : Nat) : List Byte := (buf.toList.drop i).take n

/-- `MemWrite(buf, i, 1, b)` (R80). -/
def memWrite (buf : Vector Byte 255) (i : Nat) (b : Byte) : Vector Byte 255 := buf.setIfInBounds i b

/-! ## Streams -/

/-- `RxNext()` (R85). -/
def rxNext (s : State) : Option (Byte × Time) := s.env.rx.head?

/-- `RxPop()` (R85). -/
def rxPop (s : State) : State := { s with env.rx := s.env.rx.tail }

/-- `TxWrite(bs)` (R87): every write is complete. -/
def txWrite (bs : List Byte) (s : State) : State := { s with env.tx := s.env.tx ++ bs }

/-! ## The model's history -/

/-- `record`: append to the event history (R198). -/
def record (es : List Event) (s : State) : State := { s with log.events := s.log.events ++ es }

/-! ## Pins -/

/-- The level a pin register holds. -/
def pinLevel (p : Pin) (s : State) : Bool :=
  match p with
  | .wake => s.pins.wakeN
  | .reset => s.pins.resetN

/-- The change of level to record when a pin is driven (R424): none when the level stays. -/
def pinChange (p : Pin) (v : Bool) (s : State) : List PinChange :=
  if pinLevel p s = v then [] else [{ pin := p, level := v, time := s.env.now }]

/-- `PinWrite(wake_n, v)` (R62). -/
def pinWriteWake (v : Bool) (s : State) : State :=
  { s with pins.wakeN := v, log.pins := s.log.pins ++ pinChange .wake v s }

/-- `PinWrite(reset_n, v)` (R62). -/
def pinWriteReset (v : Bool) (s : State) : State :=
  { s with pins.resetN := v, log.pins := s.log.pins ++ pinChange .reset v s }

/-! ## The result register -/

/-- `result <- r`: writes the result, sets `result_valid` and clears `op_busy` (R10, R31). -/
def writeResult (r : Result) (s : State) : State :=
  { s with
    host.result := r, host.resultValid := true, host.busy := false,
    log.results := s.log.results ++ [r] }

/-- `raise <status>()`: end the operation with a status and every other field empty (R10, R370). -/
def raise (st : Status) (s : State) : State := writeResult { Result.empty with status := st.code } s

/-- The result of an operation that returns a frame (R32, R34). -/
def frameResult (f : DecodedFrame) (ind matched : Bool) : Result :=
  { Result.empty with
    status := Status.ok.code, frameValid := true, frame := some f, isIndication := ind,
    matched := matched }

/-! ## The Indication Queue -/

/-- The slot of the `k`-th entry in FIFO order, `(q_head + k) mod 32` (R52). -/
def Queue.slot (q : Queue) (k : Nat) : Fin 32 := Fin.ofNat 32 (q.head.toNat + k)

/-- The entries in FIFO order, oldest first (R52). -/
def Queue.frames (q : Queue) : List DecodedFrame :=
  (List.range q.count.toNat).map fun k => q.entry[q.slot k]

/-- `ENQUEUE(f)` on the queue registers (R231): on a full queue nothing changes. -/
def Queue.push (f : DecodedFrame) (q : Queue) : Queue :=
  if q.isFull then q
  else { q with entry := q.entry.set (q.slot q.count.toNat) f, count := q.count + 1#6 }

/-- `ENQUEUE(f)` (R231): the frame is dropped and the drop recorded when the queue is full (R232). -/
def enqueue (f : DecodedFrame) (s : State) : State :=
  record (if s.queue.isFull then [.queueDrop f] else []) { s with queue := s.queue.push f }

/-- The oldest entry, `q_entry[q_head]` (R236). -/
def Queue.oldest (q : Queue) : DecodedFrame := q.entry[q.slot 0]

/-- `q_head <- (q_head + 1) mod 32; q_count <- q_count - 1` (R236). -/
def Queue.pop (q : Queue) : Queue := { q with head := q.head + 1#5, count := q.count - 1#6 }

/-! ## Starting a receive -/

/-- `rsm_start(d, e)` (R181). -/
def rsmStart (d : Time) (e : Option Byte) (s : State) : State :=
  { s with rsm.deadline := d, rsm.expected := e, rsm.phase := .huntSync }

/-- `rsm_start(now + timeout, e); ctl_phase <- ph`. A deadline past 2^64 - 1 refuses the run (R182). -/
def startReceive (timeout : Time) (e : Option Byte) (ph : CtlPhase) (s : State) :
    Host.Outcome State Fault Refusal :=
  match addTime s.env.now timeout with
  | none => .refused .deadlineOverflow
  | some d => .next { rsmStart d e s with ctl := ph }

/-! ## Block reset -/

/-- Asserting `rst` (R420): every block register takes its reset value, and the environment (`now`, RX,
TX, the presented operations) stays. The history stays and gains the pin changes. -/
def blockReset (s : State) : State :=
  { State.reset with
    env := s.env
    params := s.params
    log := { s.log with pins := s.log.pins ++ pinChange .wake true s ++ pinChange .reset true s } }

end Machine
end Sys2Proof
end

