-- ==== Sys2Proof/Machine/Rsm.lean ====
section
/-! DEFINITION. The Receive State Machine at byte level (spec/41_receive.md R183 to R191) as a function
of its own registers alone, and the big-step form (R197). -/

namespace Sys2Proof
namespace Machine

/-- The outcome of a receive (R190, R191). -/
inductive RsmOutcome where
  /-- `FRAME(f, is_indication)` (R190). -/
  | frame (f : DecodedFrame) (ind : Bool)
  /-- `TIMED_OUT` (R191). -/
  | timedOut
deriving DecidableEq, Repr

/-- What one byte step does: the RSM's registers after it, the events it records (R198), and the outcome
if it produces one (R195). -/
structure RsmStep where
  rsm : Rsm
  events : List Event
  outcome : Option RsmOutcome
deriving DecidableEq, Repr

/-- HUNT_SYNC (R184). -/
def huntSyncByte (b : Byte) (r : Rsm) : RsmStep :=
  if b = Config.sync then
    { rsm := { r with sum := Config.sync, phase := .huntCode }, events := [], outcome := none }
  else { rsm := r, events := [.discard b], outcome := none }

/-- HUNT_CODE: the filler test (R185), then the acceptance test (R186), in that order (R377 item 4). -/
def huntCodeByte (b : Byte) (r : Rsm) : RsmStep :=
  if b = Config.sync then { rsm := r, events := [.filler], outcome := none }
  else if codeOk b r.expected then
    { rsm := { r with code := b, sum := r.sum + b, phase := .readLen }, events := [],
      outcome := none }
  else { rsm := { r with phase := .huntSync }, events := [.unexpectedByte b], outcome := none }

/-- READ_LEN (R187): every value is accepted. -/
def readLenByte (b : Byte) (r : Rsm) : RsmStep :=
  { rsm := { r with len := b, sum := r.sum + b, count := 0#9, phase := .readBody }, events := [],
    outcome := none }

/-- The registers after a body byte is counted: the sum, and for a payload byte the buffer (R188). -/
def bodyByte (b : Byte) (r : Rsm) : Rsm :=
  { r with
    sum := r.sum + b
    buf := if r.count.toNat < r.len.toNat then memWrite r.buf r.count.toNat b else r.buf
    count := r.count + 1#9 }

/-- The frame the RSM has assembled (R188, R190). -/
def assembled (r : Rsm) : DecodedFrame :=
  { code := r.code, length := r.len, payload := memRead r.buf 0 r.len.toNat }

/-- READ_BODY with the checksum test (R188, R189) and the accept outcome (R190). -/
def readBodyByte (b : Byte) (r : Rsm) : RsmStep :=
  let r' := bodyByte b r
  if r'.count = r'.len.setWidth 9 + 1#9 then
    if r'.sum = 0#8 then
      { rsm := { r' with phase := .idle }, events := [],
        outcome := some (.frame (assembled r') (isIndication r'.code)) }
    else { rsm := { r' with phase := .huntSync }, events := [.checksumMismatch], outcome := none }
  else { rsm := r', events := [], outcome := none }

/-- The RSM's step on a counted byte (R183 to R190). At `R_IDLE` no byte step is enabled and nothing
changes (R86, R183). -/
def rsmByte (b : Byte) (r : Rsm) : RsmStep :=
  match r.phase with
  | .idle => { rsm := r, events := [], outcome := none }
  | .huntSync => huntSyncByte b r
  | .huntCode => huntCodeByte b r
  | .readLen => readLenByte b r
  | .readBody => readBodyByte b r

/-- The timeout step on the RSM's registers (R191). -/
def rsmTimeout (r : Rsm) : RsmStep :=
  { rsm := { r with phase := .idle }, events := [.timeout r.phase], outcome := some .timedOut }

/-- Whether an RX byte counts for the running receive: it arrived strictly before the deadline (R183). -/
def counted (r : Rsm) (x : Byte × Time) : Bool := decide (x.2 < r.deadline)

/-- What a whole receive comes to (R197): the outcome, the RX stream after it, the RSM's registers and
the events recorded. -/
structure BigStep where
  outcome : RsmOutcome
  rx : List (Byte × Time)
  rsm : Rsm
  events : List Event
deriving DecidableEq, Repr

/-- The big-step form (R197): the byte steps over the counted prefix of the stream, in order, until one
produces an outcome; with the prefix used up, the timeout. -/
def bigStep : List (Byte × Time) → Rsm → BigStep
  | [], r => { outcome := .timedOut, rx := [], rsm := (rsmTimeout r).rsm, events := (rsmTimeout r).events }
  | x :: rx, r =>
    if counted r x then
      let st := rsmByte x.1 r
      match st.outcome with
      | some o => { outcome := o, rx := rx, rsm := st.rsm, events := st.events }
      | none =>
        let rest := bigStep rx st.rsm
        { rest with events := st.events ++ rest.events }
    else
      { outcome := .timedOut, rx := x :: rx, rsm := (rsmTimeout r).rsm, events := (rsmTimeout r).events }

end Machine
end Sys2Proof
end

