-- ==== Sys2Proof/Machine/Correlator.lean ====
section
/-! DEFINITION. The Request/Reply Correlator (spec/43_correlator.md R260 to R269), the delivery of RSM
outcomes to the controller (spec/41_receive.md R195), and the operations RECEIVE (R180),
REQUEST_REPLY (R260), TRANSACTION (R270) and POLL_INDICATION (R280). -/

namespace Sys2Proof
namespace Machine

/-! ## Finishing a correlation -/

/-- `end_correlation()` (R262, R272): a TRANSACTION drives the wakeup pin high, then `CTL_IDLE`. -/
def endCorrelation (s : State) : State :=
  { (if s.corr.ctx then pinWriteWake true s else s) with ctl := .idle }

/-- `finish_matched(f)` (R262). -/
def finishMatched (f : DecodedFrame) (s : State) : State :=
  endCorrelation (writeResult (frameResult f false true) s)

/-- The result of exhaustion: the strict test first (R377 item 6), then the last frame observed, in
legacy mode (R262, R263). -/
def exhaustedResult (c : Corr) : Result :=
  if c.strict then { Result.empty with status := Status.noReplyAfterRetries.code }
  else
    match c.last with
    | some g => frameResult g (isIndication g.code) false
    | none => { Result.empty with status := Status.noReplyAfterRetries.code }

/-- `finish_exhausted()` (R262). -/
def finishExhausted (s : State) : State := endCorrelation (writeResult (exhaustedResult s.corr) s)

/-- `next_or_finish()` (R261): the next attempt, with a fresh deadline (R265), or the end. -/
def nextOrFinish (s : State) : Host.Outcome State Fault Refusal :=
  if s.corr.remaining = 0#8 then .next (finishExhausted s)
  else
    startReceive (timeoutTime s.corr.timeout) (some (replyCode s.corr.cmd)) .rrAttempt
      { s with corr.remaining := s.corr.remaining - 1#8 }

/-! ## The end of an attempt -/

/-- A reply whose length is not the expected one (R261). -/
def wrongLength (c : Corr) (f : DecodedFrame) : Bool :=
  match c.expLen with
  | some n => f.length != n
  | none => false

/-- An indication ends the attempt: it is enqueued, and observed as the last frame under `ANY_FRAME`
(R261, R266, R269). -/
def attemptIndication (f : DecodedFrame) (s : State) : Host.Outcome State Fault Refusal :=
  nextOrFinish (enqueue f
    (if s.params.lastFrame = .anyFrame then { s with corr.last := some f } else s))

/-- The attempt-end rule (R261): the indication test before the length test (R377 item 5). -/
def attemptEnd (o : RsmOutcome) (s : State) : Host.Outcome State Fault Refusal :=
  match o with
  | .timedOut => nextOrFinish s
  | .frame f ind =>
    if ind then attemptIndication f s
    else if wrongLength s.corr f then nextOrFinish { s with corr.last := some f }
    else .next (finishMatched f s)

/-! ## Outcome delivery -/

/-- The result a bare receive ends with: RECEIVE (R180) and POLL_INDICATION (R280). -/
def receiveResult : RsmOutcome → Result
  | .frame f ind => frameResult f ind false
  | .timedOut => { Result.empty with status := Status.timedOut.code }

/-- A bare receive ends: the result, then `CTL_IDLE`; no pin moves (R180, R280, R281). -/
def finishReceive (o : RsmOutcome) (s : State) : State :=
  { writeResult (receiveResult o) s with ctl := .idle }

/-- Outcome delivery to the controller phase that started the RSM (R195). -/
def deliver (o : RsmOutcome) (s : State) : Host.Outcome State Fault Refusal :=
  match s.ctl with
  | .receive => .next (finishReceive o s)
  | .rrAttempt => attemptEnd o s
  | .pollReceive => .next (finishReceive o s)
  | .idle => .fault .rsmWithoutOwner
  | .trWake => .fault .rsmWithoutOwner
  | .mrLow => .fault .rsmWithoutOwner
  | .mrSettle => .fault .rsmWithoutOwner

/-- Put an RSM step into the state: its registers and events, and its outcome delivered in the same
step (R195). -/
def applyRsm (st : RsmStep) (s : State) : Host.Outcome State Fault Refusal :=
  match st.outcome with
  | none => .next (record st.events { s with rsm := st.rsm })
  | some o => deliver o (record st.events { s with rsm := st.rsm })

/-- The Core's step on a byte popped off the RX stream (R183 to R190, R195). -/
def byteStep (b : Byte) (s : State) : Host.Outcome State Fault Refusal := applyRsm (rsmByte b s.rsm) s

/-! ## The operations -/

/-- `RECEIVE` (R180): start the receive; its end is `finishReceive`. -/
def execReceive (timeout : BitVec 32) (expect : Option Byte) (s : State) :
    Host.Outcome State Fault Refusal :=
  startReceive (timeoutTime timeout) expect .receive s

/-- The correlator registers at the start of an operation (R260, R270). -/
def corrStart (cmd : Byte) (timeout : BitVec 32) (len : Option Byte) (retries : Byte) (strict ctx : Bool) :
    Corr where
  cmd := cmd
  expLen := len
  timeout := timeout
  remaining := retries
  strict := strict
  last := none
  ctx := ctx

/-- `REQUEST_REPLY` (R260), its start step. -/
def execRequestReply (cmd : Byte) (timeout : BitVec 32) (len : Option Byte) (retries : Byte)
    (strict : Bool) (s : State) : Host.Outcome State Fault Refusal :=
  nextOrFinish { s with corr := corrStart cmd timeout len retries strict false }

/-- `TRANSACTION` (R270), its first step: the payload check (R274), then the wakeup pin low and the wait
`T_WAKE` (R271). -/
def execTransaction (_cmd : Byte) (p : List Byte) (_timeout : BitVec 32) (_len : Option Byte)
    (_retries : Byte) (_strict : Bool) (s : State) : Host.Outcome State Fault Refusal :=
  if payloadTooLarge p then .next (raise .payloadTooLarge s)
  else
    match addTime s.env.now s.params.tWake with
    | none => .refused .deadlineOverflow
    | some u => .next { pinWriteWake false s with twUntil := u, ctl := .trWake }

/-- `TRANSACTION` (R270), the step at the end of `CTL_TR_WAKE`: the frame of the operation in `cur_op`
is written, and the correlation starts. -/
def transactionTransmit (s : State) : Host.Outcome State Fault Refusal :=
  match decodeOp s.host.curOp with
  | .ok (.transaction cmd p timeout len retries strict) =>
    nextOrFinish
      { txWrite (frame cmd p) s with corr := corrStart cmd timeout len retries strict true }
  | _ => .fault .wakeWithoutTransaction

/-- `POLL_INDICATION` (R280): the oldest queued indication, or an unsolicited receive with the module
awake (R281). -/
def execPollIndication (timeout : BitVec 32) (s : State) : Host.Outcome State Fault Refusal :=
  if s.queue.isEmpty then
    startReceive (timeoutTime timeout) none .pollReceive (pinWriteWake false s)
  else
    .next (writeResult (frameResult s.queue.oldest true false) { s with queue := s.queue.pop })

end Machine
end Sys2Proof
end

