-- ==== Sys2Proof/Machine/PinOperations.lean ====
section
/-! DEFINITION. The pin operations WAKEUP, SLEEP and MODULE_RESET (spec/43_correlator.md R286 to R291). -/

namespace Sys2Proof
namespace Machine

/-- `WAKEUP` (R286). -/
def execWakeup (s : State) : Host.Outcome State Fault Refusal := .next (raise .ok (pinWriteWake false s))

/-- `SLEEP` (R287). -/
def execSleep (s : State) : Host.Outcome State Fault Refusal := .next (raise .ok (pinWriteWake true s))

/-- A phase of MODULE_RESET: drive the reset pin, and stay in the phase until the wait is over (R290). -/
def moduleResetPhase (level : Bool) (wait : Time) (ph : CtlPhase) (s : State) :
    Host.Outcome State Fault Refusal :=
  match addTime s.env.now wait with
  | none => .refused .deadlineOverflow
  | some u => .next { pinWriteReset level s with mrUntil := u, ctl := ph }

/-- `MODULE_RESET` (R290), its first step: the reset pin low. -/
def execModuleReset (s : State) : Host.Outcome State Fault Refusal :=
  moduleResetPhase false s.params.tResetLow .mrLow s

/-- `MODULE_RESET` (R290), the step at the end of `CTL_MR_LOW`: the reset pin high. -/
def moduleResetRelease (s : State) : Host.Outcome State Fault Refusal :=
  moduleResetPhase true s.params.tSettle .mrSettle s

/-- `MODULE_RESET` (R290), the step at the end of `CTL_MR_SETTLE`. -/
def moduleResetDone (s : State) : Host.Outcome State Fault Refusal :=
  .next { raise .ok s with ctl := .idle }

end Machine
end Sys2Proof
end

