-- ==== Sys2Proof/Machine/Controller.lean ====
section
/-! DEFINITION. The Core's steps between instructions and the turns of the other agents: accepting an
operation (spec/30_encoding.md R121), fetching a CODE byte, the timeout step (spec/41_receive.md R191,
R192), the end of a timed wait (spec/43_correlator.md R270, R290), and the Host, the Transport, Time and
the reset input (spec/00_scope.md R6). -/

namespace Sys2Proof
namespace Machine

/-! ## The host port -/

/-- Accept the presented operation, or wait for one (R121). -/
def acceptStep (s : State) : State :=
  match s.env.hostQueue with
  | [] => s
  | op :: rest => { s with host.curOp := op, host.busy := true, env.hostQueue := rest }

/-- An illegal host operation: `ILLEGAL_OP` and no other change (R123, R377 item 1). A record without
its `PLEN` operand bytes is no operation (R120) and is refused. -/
def illegalStep (e : DecodeError) (s : State) : Host.Outcome State Fault Refusal :=
  if e.isIllegalOp then .next (raise .illegalOp s) else .refused .malformedHostOp

/-! ## Receiving -/

/-- The CODE instruction that the RSM fetches with a byte: 0xAA while it looks for SYNC, and any named
code while it looks for a CODE (R184 to R186). In the other phases a byte is data. -/
def fetchCode (ph : RsmPhase) (b : Byte) : Option Instr :=
  match ph with
  | .idle => none
  | .huntSync => if b = Config.sync then some .syncFiller else none
  | .huntCode =>
    match decodeCode b with
    | .ok i => some i
    | .error _ => none
  | .readLen => none
  | .readBody => none

/-- The RX head, when it counts for the running receive (R183). -/
def countedHead (s : State) : Option Byte :=
  match rxNext s with
  | some x => if counted s.rsm x then some x.1 else none
  | none => none

/-- The timeout step is enabled (R191). -/
def timeoutEnabled (s : State) : Bool :=
  s.rsm.phase != .idle && decide (s.rsm.deadline ≤ s.env.now) && (countedHead s).isNone

/-- A report at `t` is within `T_OVERRUN` of the running deadline (R192). -/
def withinOverrun (t : Nat) (s : State) : Bool :=
  decide (t ≤ s.rsm.deadline.toNat + s.params.tOverrun.toNat)

/-- The timeout step (R191), which R192 allows only within `T_OVERRUN` of the deadline. -/
def timeoutStep (s : State) : Host.Outcome State Fault Refusal :=
  if withinOverrun s.env.now.toNat s then applyRsm (rsmTimeout s.rsm) s
  else .refused .timeoutOverdue

/-- The Core's step while a receive runs and no counted byte is at the RX head: the timeout step when
`now` has reached the deadline, else it waits (R191). -/
def receiveWait (s : State) : Host.Outcome State Fault Refusal :=
  if timeoutEnabled s then timeoutStep s else .next s

/-! ## Timed waits -/

/-- A step that is enabled once `now` has reached a time; until then the Core waits (R270, R290). -/
def whenReached (t : Time) (go : State → Host.Outcome State Fault Refusal) (s : State) :
    Host.Outcome State Fault Refusal :=
  if t ≤ s.env.now then go s else .next s

/-! ## The environment -/

/-- The Host presents an operation, which is held until it is accepted (R121). -/
def hostTurn (op : HostOp) (s : State) : Host.Outcome State Fault Refusal :=
  if op.wf then .next { s with env.hostQueue := s.env.hostQueue ++ [op] }
  else .refused .malformedHostOp

/-- A byte may be appended with this arrival time: not earlier than the last byte appended, popped or
not, and not later than `now` (R67). -/
def arrivalOk (t : Time) (s : State) : Bool :=
  decide (s.env.lastArrival ≤ t) && decide (t ≤ s.env.now)

/-- The Transport appends a received byte (R67). -/
def rxTurn (b : Byte) (t : Time) (s : State) : Host.Outcome State Fault Refusal :=
  if arrivalOk t s then .next { s with env.rx := s.env.rx ++ [(b, t)], env.lastArrival := t }
  else .refused .arrivalOutOfOrder

/-- The Transport takes the oldest TX byte, if there is one (R68). -/
def txTakeTurn (s : State) : State :=
  match s.env.tx with
  | [] => s
  | b :: rest => { s with env.tx := rest, env.txTaken := s.env.txTaken ++ [b] }

/-- Advancing to `t` would carry `now` past the reporting bound of a timeout step that is, or on the way
becomes, enabled (R192). -/
def passesOverrun (t : Nat) (s : State) : Bool :=
  s.rsm.phase != .idle && (countedHead s).isNone && !withinOverrun t s

/-- Time advances `now` to `t` (R66): never backwards, never past 2^64 - 1 (93 U10), and not past the
bound of R192. -/
def timeTurn (t : Nat) (s : State) : Host.Outcome State Fault Refusal :=
  if 2 ^ 64 ≤ t then .refused .clockOverflow
  else if t < s.env.now.toNat then .refused .timeBackwards
  else if passesOverrun t s then .refused .timeoutOverdue
  else .next { s with env.now := BitVec.ofNat 64 t }

end Machine
end Sys2Proof
end

