-- ==== Sys2Proof/Machine/Codec.lean ====
section
/-! DEFINITION. The Frame Codec's host operations ENCODE, CHECK and SEND (spec/40_codec.md). -/

namespace Sys2Proof
namespace Machine

/-- `ENCODE` (R151): build a frame and return it to the Host. -/
def execEncode (c : Byte) (p : List Byte) (s : State) : Host.Outcome State Fault Refusal :=
  if payloadTooLarge p then .next (raise .payloadTooLarge s)
  else .next (writeResult { Result.empty with status := Status.ok.code, out := frame c p } s)

/-- `CHECK` (R156): test only the 8-bit sum of a byte string. -/
def execCheck (d : List Byte) (s : State) : Host.Outcome State Fault Refusal :=
  .next (writeResult { Result.empty with status := Status.ok.code, checkOk := sum8 d == 0#8 } s)

/-- `SEND` (R158): write a frame to the TX stream; no pin moves (R159). -/
def execSend (c : Byte) (p : List Byte) (s : State) : Host.Outcome State Fault Refusal :=
  if payloadTooLarge p then .next (raise .payloadTooLarge s)
  else .next (raise .ok (txWrite (frame c p) s))

end Machine
end Sys2Proof
end

