-- ==== Sys2Proof/Machine/Codes.lean ====
section
/-! DEFINITION. The meanings of the named frame CODE values (spec/30_encoding.md R116; the rules of
spec/44_commands.md) and of the byte 0xAA. The block runs a CODE byte when the RSM consumes it: in
HUNT_CODE it is accepted or rejected (R186), 0xAA is SYNC or filler (R184, R185), and elsewhere the byte
is noise, a length or data (R184, R187, R188). "The block handles every code the same way": each meaning
is the RSM's byte step on its own byte. What the Façade does with a code is Machine/Facade.lean. -/

namespace Sys2Proof
namespace Machine

/-- MODULE_RESET_CMD_REQ: the command byte 0x30 (R310; R116, R183 to R190). -/
def execModuleResetCmdReq (s : State) : Host.Outcome State Fault Refusal := byteStep 0x30#8 s

/-- EEPROM_WRITE_REQ: the command byte 0x32 (R311; R116, R183 to R190). -/
def execEepromWriteReq (s : State) : Host.Outcome State Fault Refusal := byteStep 0x32#8 s

/-- EEPROM_READ_REQ: the command byte 0x33 (R312; R116, R183 to R190). -/
def execEepromReadReq (s : State) : Host.Outcome State Fault Refusal := byteStep 0x33#8 s

/-- GET_FW_VERSION_REQ: the command byte 0x34 (R313; R116, R183 to R190). -/
def execGetFwVersionReq (s : State) : Host.Outcome State Fault Refusal := byteStep 0x34#8 s

/-- GET_SERIAL_NO_REQ: the command byte 0x35 (R314; R116, R183 to R190). -/
def execGetSerialNoReq (s : State) : Host.Outcome State Fault Refusal := byteStep 0x35#8 s

/-- GET_DEV_EUI_REQ: the command byte 0x36 (R315; R116, R183 to R190). -/
def execGetDevEuiReq (s : State) : Host.Outcome State Fault Refusal := byteStep 0x36#8 s

/-- JOIN_REQ: the command byte 0x40 (R316; R116, R183 to R190). -/
def execJoinReq (s : State) : Host.Outcome State Fault Refusal := byteStep 0x40#8 s

/-- GET_ACTIVATION_STATUS_REQ: the command byte 0x42 (R317; R116, R183 to R190). -/
def execGetActivationStatusReq (s : State) : Host.Outcome State Fault Refusal := byteStep 0x42#8 s

/-- SET_APP_KEY_REQ: the command byte 0x43 (R318; R116, R183 to R190). -/
def execSetAppKeyReq (s : State) : Host.Outcome State Fault Refusal := byteStep 0x43#8 s

/-- TX_MSG_REQ: the command byte 0x46 (R319; R116, R183 to R190). -/
def execTxMsgReq (s : State) : Host.Outcome State Fault Refusal := byteStep 0x46#8 s

/-- SET_CH_PARAMETERS_REQ: the command byte 0x57 (R320; R116, R183 to R190). -/
def execSetChParametersReq (s : State) : Host.Outcome State Fault Refusal := byteStep 0x57#8 s

/-- MODULE_RESET_CMD_REPLY: the reply byte 0xB0 (R310; R116, R183 to R190). -/
def execModuleResetCmdReply (s : State) : Host.Outcome State Fault Refusal := byteStep 0xB0#8 s

/-- EEPROM_WRITE_REPLY: the reply byte 0xB2 (R311; R116, R183 to R190). -/
def execEepromWriteReply (s : State) : Host.Outcome State Fault Refusal := byteStep 0xB2#8 s

/-- EEPROM_READ_REPLY: the reply byte 0xB3 (R312; R116, R183 to R190). -/
def execEepromReadReply (s : State) : Host.Outcome State Fault Refusal := byteStep 0xB3#8 s

/-- GET_FW_VERSION_REPLY: the reply byte 0xB4 (R313; R116, R183 to R190). -/
def execGetFwVersionReply (s : State) : Host.Outcome State Fault Refusal := byteStep 0xB4#8 s

/-- GET_SERIAL_NO_REPLY: the reply byte 0xB5 (R314; R116, R183 to R190). -/
def execGetSerialNoReply (s : State) : Host.Outcome State Fault Refusal := byteStep 0xB5#8 s

/-- GET_DEV_EUI_REPLY: the reply byte 0xB6 (R315; R116, R183 to R190). -/
def execGetDevEuiReply (s : State) : Host.Outcome State Fault Refusal := byteStep 0xB6#8 s

/-- JOIN_REPLY: the reply byte 0xC0 (R316; R116, R183 to R190). -/
def execJoinReply (s : State) : Host.Outcome State Fault Refusal := byteStep 0xC0#8 s

/-- GET_ACTIVATION_STATUS_REPLY: the reply byte 0xC2 (R317; R116, R183 to R190). -/
def execGetActivationStatusReply (s : State) : Host.Outcome State Fault Refusal := byteStep 0xC2#8 s

/-- SET_APP_KEY_REPLY: the reply byte 0xC3 (R318; R116, R183 to R190). -/
def execSetAppKeyReply (s : State) : Host.Outcome State Fault Refusal := byteStep 0xC3#8 s

/-- TX_MSG_REPLY: the reply byte 0xC6 (R319; R116, R183 to R190). -/
def execTxMsgReply (s : State) : Host.Outcome State Fault Refusal := byteStep 0xC6#8 s

/-- SET_CH_PARAMETERS_REPLY: the reply byte 0xD7 (R320; R116, R183 to R190). -/
def execSetChParametersReply (s : State) : Host.Outcome State Fault Refusal := byteStep 0xD7#8 s

/-- JOIN_RESULT_IND: the indication byte 0x41 (R325; R116, R183 to R190). -/
def execJoinResultInd (s : State) : Host.Outcome State Fault Refusal := byteStep 0x41#8 s

/-- CONFIRMED_TX_RESULT_IND: the indication byte 0x47 (R326; R116, R183 to R190). -/
def execConfirmedTxResultInd (s : State) : Host.Outcome State Fault Refusal := byteStep 0x47#8 s

/-- UNCONFIRMED_TX_RESULT_IND: the indication byte 0x48 (R327; R116, R183 to R190). -/
def execUnconfirmedTxResultInd (s : State) : Host.Outcome State Fault Refusal := byteStep 0x48#8 s

/-- RX_MSG_IND: the indication byte 0x49 (R328; R116, R183 to R190). -/
def execRxMsgInd (s : State) : Host.Outcome State Fault Refusal := byteStep 0x49#8 s

/-- SYNC_FILLER: the SYNC value byte 0xAA (R184, R185; R116, R183 to R190). -/
def execSyncFiller (s : State) : Host.Outcome State Fault Refusal := byteStep 0xAA#8 s

end Machine
end Sys2Proof
end

