-- ==== Sys2Proof/Machine/IndicationQueue.lean ====
section
/-! DEFINITION. The Indication Queue's host operation DEQUEUE (spec/42_queue.md R236). ENQUEUE (R231)
is `Machine.enqueue` of Ops.lean: it has no selector. -/

namespace Sys2Proof
namespace Machine

/-- `DEQUEUE` (R236): pop the oldest queued indication. -/
def execDequeue (s : State) : Host.Outcome State Fault Refusal :=
  if s.queue.isEmpty then .next (raise .empty s)
  else
    .next (writeResult (frameResult s.queue.oldest (isIndication s.queue.oldest.code) false)
      { s with queue := s.queue.pop })

end Machine
end Sys2Proof
end

