-- ==== Sys2Proof/Machine/Dispatch.lean ====
section
/-! DEFINITION. One arm per instruction (spec/opcode_table.json). -/

namespace Sys2Proof
namespace Machine

def exec (i : Instr) (s : State) : Host.Outcome State Fault Refusal :=
  match i with
  | .encode c p => Sys2Proof.Machine.execEncode c p s
  | .check d => Sys2Proof.Machine.execCheck d s
  | .send c p => Sys2Proof.Machine.execSend c p s
  | .receive t e => Sys2Proof.Machine.execReceive t e s
  | .requestReply c t n m st => Sys2Proof.Machine.execRequestReply c t n m st s
  | .dequeue => Sys2Proof.Machine.execDequeue s
  | .pollIndication t => Sys2Proof.Machine.execPollIndication t s
  | .transaction c p t n m st => Sys2Proof.Machine.execTransaction c p t n m st s
  | .wakeup => Sys2Proof.Machine.execWakeup s
  | .sleep => Sys2Proof.Machine.execSleep s
  | .moduleReset => Sys2Proof.Machine.execModuleReset s
  | .moduleResetCmdReq => Sys2Proof.Machine.execModuleResetCmdReq s
  | .eepromWriteReq => Sys2Proof.Machine.execEepromWriteReq s
  | .eepromReadReq => Sys2Proof.Machine.execEepromReadReq s
  | .getFwVersionReq => Sys2Proof.Machine.execGetFwVersionReq s
  | .getSerialNoReq => Sys2Proof.Machine.execGetSerialNoReq s
  | .getDevEuiReq => Sys2Proof.Machine.execGetDevEuiReq s
  | .joinReq => Sys2Proof.Machine.execJoinReq s
  | .getActivationStatusReq => Sys2Proof.Machine.execGetActivationStatusReq s
  | .setAppKeyReq => Sys2Proof.Machine.execSetAppKeyReq s
  | .txMsgReq => Sys2Proof.Machine.execTxMsgReq s
  | .setChParametersReq => Sys2Proof.Machine.execSetChParametersReq s
  | .moduleResetCmdReply => Sys2Proof.Machine.execModuleResetCmdReply s
  | .eepromWriteReply => Sys2Proof.Machine.execEepromWriteReply s
  | .eepromReadReply => Sys2Proof.Machine.execEepromReadReply s
  | .getFwVersionReply => Sys2Proof.Machine.execGetFwVersionReply s
  | .getSerialNoReply => Sys2Proof.Machine.execGetSerialNoReply s
  | .getDevEuiReply => Sys2Proof.Machine.execGetDevEuiReply s
  | .joinReply => Sys2Proof.Machine.execJoinReply s
  | .getActivationStatusReply => Sys2Proof.Machine.execGetActivationStatusReply s
  | .setAppKeyReply => Sys2Proof.Machine.execSetAppKeyReply s
  | .txMsgReply => Sys2Proof.Machine.execTxMsgReply s
  | .setChParametersReply => Sys2Proof.Machine.execSetChParametersReply s
  | .joinResultInd => Sys2Proof.Machine.execJoinResultInd s
  | .confirmedTxResultInd => Sys2Proof.Machine.execConfirmedTxResultInd s
  | .unconfirmedTxResultInd => Sys2Proof.Machine.execUnconfirmedTxResultInd s
  | .rxMsgInd => Sys2Proof.Machine.execRxMsgInd s
  | .syncFiller => Sys2Proof.Machine.execSyncFiller s

end Machine
end Sys2Proof
end

