-- ==== Sys2Proof/Machine/Step.lean ====
section
/-! DEFINITION. One step of the machine: the agent at the head of the agenda moves, and with the agenda
empty the Core (spec/00_scope.md R6). The Core's step is chosen by `ctl_phase` (spec/10_state.md R30,
R55). -/

namespace Sys2Proof
namespace Machine

/-- The Core's step on the counted byte at the RX head: pop it, and run the CODE instruction it is, or
the plain byte step where it is none (R183). -/
def receiveByte (b : Byte) (s : State) : Host.Outcome State Fault Refusal :=
  match fetchCode s.rsm.phase b with
  | some i => exec i (rxPop s)
  | none => byteStep b (rxPop s)

/-- The Core's step in a receive phase: a counted byte before a timeout (R191, R377 item 3). With the RSM
at `R_IDLE`, which R55 excludes here, neither step is enabled (R183, R191) and the model faults. -/
def receivePhaseStep (s : State) : Host.Outcome State Fault Refusal :=
  if s.rsm.phase = .idle then .fault .receiveWithoutRsm
  else
    match countedHead s with
    | some b => receiveByte b s
    | none => receiveWait s

/-- Run the accepted operation: legality first (R377 item 1). -/
def runOp (s : State) : Host.Outcome State Fault Refusal :=
  match decodeOp s.host.curOp with
  | .ok i => exec i s
  | .error e => illegalStep e s

/-- The Core's step in `CTL_IDLE`: run the accepted operation, or accept the presented one (R121). -/
def idlePhaseStep (s : State) : Host.Outcome State Fault Refusal :=
  if s.host.busy then runOp s else .next (acceptStep s)

/-- The Core's one enabled step; with none enabled it waits and nothing changes (R424; 93 U21). -/
def coreStep (s : State) : Host.Outcome State Fault Refusal :=
  match s.ctl with
  | .idle => idlePhaseStep s
  | .receive => receivePhaseStep s
  | .rrAttempt => receivePhaseStep s
  | .trWake => whenReached s.twUntil transactionTransmit s
  | .pollReceive => receivePhaseStep s
  | .mrLow => whenReached s.mrUntil moduleResetRelease s
  | .mrSettle => whenReached s.mrUntil moduleResetDone s

/-- One agent's turn (R6). -/
def turnStep (a : Turn) (s : State) : Host.Outcome State Fault Refusal :=
  match a with
  | .core => coreStep s
  | .host op => hostTurn op s
  | .rx b t => rxTurn b t s
  | .txTake => .next (txTakeTurn s)
  | .time t => timeTurn t s
  | .rst => .next (blockReset s)

/-- The step: a configuration below the source's bounds is refused (R432), then the next agent moves. -/
def step (s : State) : Host.Outcome State Fault Refusal :=
  if s.params.ok then
    match s.env.agenda with
    | [] => coreStep s
    | a :: rest => turnStep a { s with env.agenda := rest }
  else .refused .configuration

/-- The accepted operation is `op`, and the Core moves next: `step` then decodes and runs it. -/
def State.withAccepted (op : HostOp) (s : State) : State :=
  { s with
    ctl := .idle, host.curOp := op, host.busy := true, env.agenda := .core :: s.env.agenda }

/-- A receive runs in HUNT_CODE with the byte `b` at the RX head, arrived before the deadline, and the
Core moves next: `step` then pops and runs it. -/
def State.withCodeByte (b : Byte) (s : State) : State :=
  { s with
    ctl := .receive, host.busy := true, rsm.phase := .huntCode, rsm.sum := Config.sync,
    rsm.deadline := if s.rsm.deadline = 0#64 then 1#64 else s.rsm.deadline,
    env.rx := (b, 0#64) :: s.env.rx, env.agenda := .core :: s.env.agenda }

/-- The state with a word of the opcode table placed where `step` fetches its next instruction: a named
CODE byte on the RX stream of a receive in HUNT_CODE, any other word as the accepted host operation. -/
def State.withFetchWord (s : State) (nbits w : Nat) : State :=
  let (p, bs) := tableWordBytes nbits w
  match p with
  | .rx => s.withCodeByte (bs.headD 0#8)
  | .host =>
    match takeHostOp bs with
    | .ok (op, _) => s.withAccepted op
    | .error _ => s

end Machine
end Sys2Proof
end

