-- ==== Sys2Proof/Machine/Assembler.lean ====
section
/-! DEFINITION. The assembler syntax of spec/30_encoding.md R125 and the pseudo-operation TX_FRAME (R126):
lines with their optional operands, what each assembles to, and the reading of a line's text. -/

namespace Sys2Proof
namespace Machine

/-- A line of R125 with its operands, the optional ones as options. -/
inductive AsmLine where
  | encode (code : Byte) (payload : List Byte)
  | check (bytes : List Byte)
  | send (code : Byte) (payload : List Byte)
  /-- `TX_FRAME`, an alias of `SEND` (R126). -/
  | txFrame (code : Byte) (payload : List Byte)
  | receive (timeout : BitVec 32) (expect : Option Byte)
  | requestReply (cmd : Byte) (timeout : BitVec 32) (len retries : Option Byte) (strict : Bool)
  | dequeue
  | pollIndication (timeout : BitVec 32)
  | transaction (cmd : Byte) (payload : List Byte) (timeout : BitVec 32) (len retries : Option Byte)
      (strict : Bool)
  | wakeup
  | sleep
  | moduleReset
  /-- `RX @<time>: <bytes>`, an environment line. -/
  | rx (time : Nat) (bytes : List Byte)
  /-- `TIME <t>`, an environment line. -/
  | time (t : Nat)
deriving DecidableEq, Repr

/-- The instruction an operation line stands for; an absent `retries=` is 8 (R124, R125). -/
def AsmLine.instr : AsmLine → Option Instr
  | .encode c p => some (.encode c p)
  | .check d => some (.check d)
  | .send c p => some (.send c p)
  | .txFrame c p => some (.send c p)
  | .receive t e => some (.receive t e)
  | .requestReply c t n m st => some (.requestReply c t n (m.getD Config.maxRetriesDefault) st)
  | .dequeue => some .dequeue
  | .pollIndication t => some (.pollIndication t)
  | .transaction c p t n m st => some (.transaction c p t n (m.getD Config.maxRetriesDefault) st)
  | .wakeup => some .wakeup
  | .sleep => some .sleep
  | .moduleReset => some .moduleReset
  | .rx _ _ => none
  | .time _ => none

/-- The header and operand bytes a line assembles to (R125); `none` for an environment line. -/
def AsmLine.assemble (l : AsmLine) : Option HostOp := l.instr.bind encodeOp

/-- The turns a line of a test program asks of the environment (R125): the Host presents an operation, the
Transport appends the bytes of an `RX` line with their arrival time, and Time moves `now` for a `TIME`
line. -/
def AsmLine.turns (l : AsmLine) : List Turn :=
  match l with
  | .rx t bs => bs.map fun b => .rx b (BitVec.ofNat 64 t)
  | .time t => [.time t]
  | l => (l.assemble.map Turn.host).toList

/-! ## Reading a line's text -/

/-- The value of a digit in a base up to 16. -/
def digitValue (base : Nat) (c : Char) : Option Nat :=
  let v :=
    if '0' ≤ c ∧ c ≤ '9' then some (c.toNat - 48)
    else if 'a' ≤ c ∧ c ≤ 'f' then some (c.toNat - 87)
    else if 'A' ≤ c ∧ c ≤ 'F' then some (c.toNat - 55)
    else none
  v.filter (· < base)

/-- The value of a digit string, most significant first. -/
def digitsFrom (base acc : Nat) : List Char → Option Nat
  | [] => some acc
  | c :: cs => (digitValue base c).bind fun d => digitsFrom base (acc * base + d) cs

/-- A number: hexadecimal when written `0x..`, else decimal (R125). -/
def readNumber (cs : List Char) : Option Nat :=
  match cs with
  | '0' :: 'x' :: ds => if ds.isEmpty then none else digitsFrom 16 0 ds
  | [] => none
  | ds => digitsFrom 10 0 ds

/-- A time in microseconds, with the suffixes `ms` and `s` (R125). -/
def readTime (cs : List Char) : Option Nat :=
  match cs.reverse with
  | 's' :: 'm' :: r => (readNumber r.reverse).map (· * 1000)
  | 's' :: r => (readNumber r.reverse).map (· * 1000000)
  | _ => readNumber cs

/-- A value that fits `w` bits. -/
def fitBits (w : Nat) (n : Nat) : Option (BitVec w) := if n < 2 ^ w then some (BitVec.ofNat w n) else none

/-- A byte operand. -/
def readByte (cs : List Char) : Option Byte := (readNumber cs).bind (fitBits 8)

/-- A byte of a byte list: two hexadecimal digits, the frame notation of R11, or a number (log entry
13). -/
def readListByte (cs : List Char) : Option Byte :=
  match cs with
  | [a, b] => (digitsFrom 16 0 [a, b]).bind (fitBits 8)
  | _ => readByte cs

/-- The words of a line; blanks inside square brackets do not split. -/
def splitWords (cur : List Char) (inside : Bool) : List Char → List (List Char)
  | [] => if cur.isEmpty then [] else [cur]
  | c :: cs =>
    if c = ' ' ∧ inside = false then
      if cur.isEmpty then splitWords [] false cs else cur :: splitWords [] false cs
    else splitWords (cur ++ [c]) ((inside || c == '[') && c != ']') cs

/-- A byte list in square brackets. -/
def readList (cs : List Char) : Option (List Byte) :=
  match cs, cs.getLast? with
  | '[' :: rest, some ']' => (splitWords [] false rest.dropLast).mapM readListByte
  | _, _ => none

/-- A word `key=value` as its two parts; a word with no `=` has no value. -/
def splitKey (cs : List Char) : List Char × Option (List Char) :=
  (cs.takeWhile (· != '='), match cs.dropWhile (· != '=') with
    | _ :: v => some v
    | [] => none)

/-- The value of the operand named `k`. -/
def operand (k : String) (ws : List (List Char)) : Option (List Char) :=
  ws.findSome? fun w =>
    match splitKey w with
    | (k', some v) => if k' = k.toList then some v else none
    | _ => none

/-- An optional byte operand; the outer option is `none` when the value does not read. -/
def optByte (k : String) (ws : List (List Char)) : Option (Option Byte) :=
  match operand k ws with
  | none => some none
  | some v => (readByte v).map some

/-- The bare word `strict` is present. -/
def hasStrict (ws : List (List Char)) : Bool := ws.any (· == "strict".toList)

/-- A timeout operand. -/
def timeoutOperand (ws : List (List Char)) : Option (BitVec 32) :=
  ((operand "timeout" ws).bind readTime).bind (fitBits 32)

/-- A byte operand that must be present. -/
def byteOperand (k : String) (ws : List (List Char)) : Option Byte := (operand k ws).bind readByte

/-- A byte-list operand that must be present. -/
def listOperand (k : String) (ws : List (List Char)) : Option (List Byte) :=
  (operand k ws).bind readList

/-- The operands of a line after its mnemonic (R125). -/
def readOperands (m : List Char) (ws : List (List Char)) : Option AsmLine :=
  if m = "ENCODE".toList then do
    return .encode (← byteOperand "code" ws) (← listOperand "payload" ws)
  else if m = "CHECK".toList then do return .check (← listOperand "bytes" ws)
  else if m = "SEND".toList then do
    return .send (← byteOperand "code" ws) (← listOperand "payload" ws)
  else if m = "TX_FRAME".toList then do
    return .txFrame (← byteOperand "code" ws) (← listOperand "payload" ws)
  else if m = "RECEIVE".toList then do
    return .receive (← timeoutOperand ws) (← optByte "expect" ws)
  else if m = "REQUEST_REPLY".toList then do
    return .requestReply (← byteOperand "cmd" ws) (← timeoutOperand ws) (← optByte "len" ws)
      (← optByte "retries" ws) (hasStrict ws)
  else if m = "DEQUEUE".toList then some .dequeue
  else if m = "POLL_INDICATION".toList then do return .pollIndication (← timeoutOperand ws)
  else if m = "TRANSACTION".toList then do
    return .transaction (← byteOperand "cmd" ws) (← listOperand "payload" ws) (← timeoutOperand ws)
      (← optByte "len" ws) (← optByte "retries" ws) (hasStrict ws)
  else if m = "WAKEUP".toList then some .wakeup
  else if m = "SLEEP".toList then some .sleep
  else if m = "MODULE_RESET".toList then some .moduleReset
  else if m = "RX".toList then
    match ws with
    | ('@' :: t) :: bs => do
      return .rx (← (readTime (t.filter (· != ':'))).filter (· < 2 ^ 64)) (← bs.mapM readListByte)
    | _ => none
  else if m = "TIME".toList then
    match ws with
    | [t] => (readTime t).map .time
    | _ => none
  else none

/-- A line of text; `;` starts a comment (R125). -/
def readLine (line : List Char) : Option AsmLine :=
  match splitWords [] false (line.takeWhile (· != ';')) with
  | [] => none
  | m :: ws => readOperands m ws

end Machine
end Sys2Proof
end

