-- ==== Sys2Proof/Machine/Facade.lean ====
section
/-! DEFINITION. The Command Façade's side of the block boundary (spec/44_commands.md): the argument checks
(R330), the request payloads, the expected reply lengths and the reply decodings of the eleven commands,
as pure functions. The Façade is host software and no agent of `step` (spec/00_scope.md R4 c): each call
is a pseudo-operation that becomes one TRANSACTION (R126). -/

namespace Sys2Proof
namespace Machine

/-- A Façade call. Where the source gives no request layout, the payload is the caller's, any value (93
U17). -/
inductive FacadeCall where
  /-- 0x30 (R310). -/
  | moduleReset (payload : List Byte)
  /-- 0x32 (R311). -/
  | eepromWrite (address length : Nat) (payload : List Byte)
  /-- 0x33 (R312). -/
  | eepromRead (address length : Nat) (payload : List Byte)
  /-- 0x34 (R313). -/
  | getFwVersion
  /-- 0x35 (R314). -/
  | getSerialNo
  /-- 0x36 (R315). -/
  | getDevEui
  /-- 0x40 (R316). -/
  | join (payload : List Byte)
  /-- 0x42 (R317). -/
  | getActivationStatus (payload : List Byte)
  /-- 0x43 (R318): the key in its natural big-endian presentation. -/
  | setAppKey (key : List Byte)
  /-- 0x46 (R319). -/
  | txMsg (port : Nat) (confirmed : Bool) (data : List Byte)
  /-- 0x57 (R320). -/
  | setChParameters (channel freq drMin drMax : Nat) (payload : List Byte)
deriving DecidableEq, Repr

/-- The command code of a call (R310 to R320). -/
def FacadeCall.cmd : FacadeCall → Byte
  | .moduleReset _ => 0x30#8
  | .eepromWrite _ _ _ => 0x32#8
  | .eepromRead _ _ _ => 0x33#8
  | .getFwVersion => 0x34#8
  | .getSerialNo => 0x35#8
  | .getDevEui => 0x36#8
  | .join _ => 0x40#8
  | .getActivationStatus _ => 0x42#8
  | .setAppKey _ => 0x43#8
  | .txMsg _ _ _ => 0x46#8
  | .setChParameters _ _ _ _ _ => 0x57#8

/-- The 256-byte EEPROM window (R311, R312; 92 D37). -/
def eepromWindowOk (address length : Nat) : Bool := decide (address ≤ 255 ∧ address + length ≤ 256)

/-- The argument checks, made before any I/O (R330). -/
def FacadeCall.argsOk : FacadeCall → Bool
  | .moduleReset _ => true
  | .eepromWrite a n _ => eepromWindowOk a n
  | .eepromRead a n _ => eepromWindowOk a n
  | .getFwVersion => true
  | .getSerialNo => true
  | .getDevEui => true
  | .join _ => true
  | .getActivationStatus _ => true
  | .setAppKey k => decide (k.length = 16)
  | .txMsg port _ data => decide (1 ≤ port ∧ port ≤ 223 ∧ data.length ≤ 209)
  | .setChParameters ch f lo hi _ => decide (3 ≤ ch ∧ ch ≤ 15) && Config.chParamsOk f lo hi

/-- The two leading bytes of a 0x46 request: the port and the confirmed selector, `01` for confirmed, in
the order the source leaves open (R319; 93 U16). -/
def txLead (port : Nat) (confirmed : Bool) : List Byte :=
  let sel : Byte := if confirmed then 0x01#8 else Config.txUnconfirmedSelector
  if Config.txPortFirst then [BitVec.ofNat 8 port, sel] else [sel, BitVec.ofNat 8 port]

/-- The request payload (R310 to R320); the application key is byte-reversed (R83, R318). -/
def FacadeCall.payload : FacadeCall → List Byte
  | .moduleReset p => p
  | .eepromWrite _ _ p => p
  | .eepromRead _ _ p => p
  | .getFwVersion => []
  | .getSerialNo => []
  | .getDevEui => []
  | .join p => p
  | .getActivationStatus p => p
  | .setAppKey k => k.reverse
  | .txMsg port c data => txLead port c ++ data
  | .setChParameters _ _ _ _ p => p

/-- `EXPECTED_LEN[cmd]` (R7, R310 to R320; 92 D28). -/
def FacadeCall.expectedLen (p : Params) : FacadeCall → Option Byte
  | .moduleReset _ => p.expectedLens.moduleReset
  | .eepromWrite _ _ _ => p.expectedLens.eepromWrite
  | .eepromRead _ _ _ => p.expectedLens.eepromRead
  | .getFwVersion => some 4#8
  | .getSerialNo => some 4#8
  | .getDevEui => some 8#8
  | .join _ => p.expectedLens.join
  | .getActivationStatus _ => p.expectedLens.activationStatus
  | .setAppKey _ => p.expectedLens.appKey
  | .txMsg _ _ _ => some 1#8
  | .setChParameters _ _ _ _ _ => p.expectedLens.chParameters

/-- A call becomes the TRANSACTION of its command (44_commands.md, template), or `INVALID_ARGUMENT` with
nothing issued (R330). -/
def facadeIssue (p : Params) (timeout : BitVec 32) (c : FacadeCall) : Except (BitVec 8) Instr :=
  if c.argsOk then
    .ok (.transaction c.cmd c.payload timeout (c.expectedLen p) Config.maxRetriesDefault false)
  else .error Status.invalidArgument.code

/-- What the Façade reads out of a reply. -/
inductive FacadeReply where
  /-- 0x34 (R313), 0x35 (R314): a 4-byte little-endian number. -/
  | number (n : Nat)
  /-- 0x36 (R315): the EUI in its big-endian presentation. -/
  | eui (e : List Byte)
  /-- The status byte convention: `0x00` is success, any other value failure (R331). -/
  | status (success : Bool)
  /-- A byte at offset 0 whose values the source gives no meaning (R317). -/
  | byte (b : Byte)
  /-- A payload whose meaning the source does not give (R312). -/
  | raw (payload : List Byte)
deriving DecidableEq, Repr

/-- The check before a result is decoded (R333): `matched`, or the reply's code and expected length. Where
`EXPECTED_LEN` is `None` and `matched = 0` R333 does not say what the length must be, and the check passes
any length (DESIGN CHOICE, log entry 21). -/
def replyValid (p : Params) (c : FacadeCall) (r : Result) : Bool :=
  r.matched ||
    match r.frame with
    | some f => f.code == replyCode c.cmd && (c.expectedLen p).all (f.length == ·)
    | none => false

/-- The byte at payload offset 0, read by `f`. The spec says nothing of an empty payload, which an
`EXPECTED_LEN` of `None` lets through: it decodes to nothing (DESIGN CHOICE, log entry 21). -/
def firstByte (f : Byte → FacadeReply) (pl : List Byte) : Option FacadeReply := pl.head?.map f

/-- A status byte at payload offset 0 (R331); an empty payload decodes to nothing (DESIGN CHOICE, log entry
21). -/
def statusReply (pl : List Byte) : Option FacadeReply := firstByte (fun b => .status (b == 0x00#8)) pl

/-- The reply decoding of a call's payload (R310 to R320, R331, R332). -/
def FacadeCall.decodeReply (c : FacadeCall) (pl : List Byte) : Option FacadeReply :=
  match c with
  | .getFwVersion => some (.number (leNat (pl.take 4)))
  | .getSerialNo => some (.number (leNat (pl.take 4)))
  | .getDevEui => some (.eui (pl.take 8).reverse)
  | .eepromRead _ _ _ => some (.raw pl)
  | .getActivationStatus _ => firstByte .byte pl
  | .moduleReset _ => statusReply pl
  | .eepromWrite _ _ _ => statusReply pl
  | .join _ => statusReply pl
  | .setAppKey _ => statusReply pl
  | .txMsg _ _ _ => statusReply pl
  | .setChParameters _ _ _ _ _ => statusReply pl

/-- The Façade decodes a result only after the check of R333. -/
def facadeReply (p : Params) (c : FacadeCall) (r : Result) : Option FacadeReply :=
  if replyValid p c r then
    match r.frame with
    | some f => c.decodeReply f.payload
    | none => none
  else none

end Machine
end Sys2Proof
end

