-- ==== Sys2Proof/Safety.lean ====
section
/-! DEFINITION. What the statements mean by a sound state and a finished run: the invariants that the
rules of spec/ give each part of the state, and the end of a run (spec/70_reset_and_hazards.md R424). -/

namespace Sys2Proof
namespace Machine

/-- The controller phases in which the RSM runs (R55, R195). -/
def CtlPhase.receiving : CtlPhase → Bool
  | .idle => false
  | .receive => true
  | .rrAttempt => true
  | .trWake => false
  | .pollReceive => true
  | .mrLow => false
  | .mrSettle => false

/-- The turn presents a host operation (R121). -/
def Turn.presents : Turn → Bool
  | .host _ => true
  | .core => false
  | .rx _ _ => false
  | .txTake => false
  | .time _ => false
  | .rst => false

/-- The run is over (R424): nothing in progress, nothing presented, so the Core has no enabled step, and
no turn to come presents a further operation. -/
def State.runOver (s : State) : Bool :=
  !s.host.busy && decide (s.ctl = .idle) && s.env.hostQueue.isEmpty && !s.env.agenda.any Turn.presents

/-- The queue's capacity is not exceeded (R53), and every occupied slot holds a whole frame (R40) whose
code is an indication's (R233). -/
def Queue.Sound (q : Queue) : Prop :=
  q.count.toNat ≤ Config.queueCap ∧ ∀ f ∈ q.frames, f.wf = true ∧ isIndication f.code = true

/-- The result register (R32, R34, R370): a status the block writes, which is never
`INVALID_ARGUMENT` (R273), `frame_valid` exactly when a whole frame is held, `is_indication` derived from
it, `matched` only with a frame, and `out` at most 259 bytes. -/
def Result.Sound (r : Result) : Prop :=
  (∃ st : Status, st ≠ .invalidArgument ∧ r.status = st.code) ∧
  r.frameValid = r.frame.isSome ∧
  (∀ f, r.frame = some f → f.wf = true ∧ r.isIndication = Machine.isIndication f.code) ∧
  (r.frame = none → r.isIndication = false ∧ r.matched = false) ∧
  r.out.length ≤ 259

/-- The last frame observed is a whole frame (R40, R56). -/
def Corr.Sound (c : Corr) : Prop := ∀ f, c.last = some f → f.wf = true

/-- The payload bytes of the body read so far. -/
def Rsm.bodySoFar (r : Rsm) : List Byte := memRead r.buf 0 r.count.toNat

/-- The RSM's registers in each phase: the running sum is that of the frame read so far (R46), the code
was acceptable (R186) and no more bytes are counted than the payload has (R47). -/
def Rsm.Sound (r : Rsm) : Prop :=
  match r.phase with
  | .idle => True
  | .huntSync => True
  | .huntCode => r.sum = Config.sync
  | .readLen =>
    r.code ≠ Config.sync ∧ codeOk r.code r.expected = true ∧ r.sum = sum8 [Config.sync, r.code]
  | .readBody =>
    r.code ≠ Config.sync ∧ codeOk r.code r.expected = true ∧ r.count.toNat ≤ r.len.toNat ∧
      r.sum = sum8 ([Config.sync, r.code, r.len] ++ r.bodySoFar)

/-- The controller phase fits the rest of the block: the RSM runs exactly in the receive phases (R195),
an operation is in progress outside `CTL_IDLE` (R55), the RSM expects what the phase's operation asked
for (R261, R280), and `CTL_TR_WAKE` belongs to a TRANSACTION with a payload that fits a frame (R270). -/
def State.ControlSound (s : State) : Prop :=
  (s.ctl.receiving = true ↔ s.rsm.phase ≠ .idle) ∧
  (s.ctl ≠ .idle → s.host.busy = true) ∧
  (s.ctl = .rrAttempt → s.rsm.expected = some (replyCode s.corr.cmd)) ∧
  (s.ctl = .pollReceive → s.rsm.expected = none) ∧
  (s.ctl = .trWake →
    ∃ c p t n m st, decodeOp s.host.curOp = .ok (.transaction c p t n m st) ∧ payloadTooLarge p = false)

/-- The pins in each phase: the reset pin is low exactly while MODULE_RESET holds it (R62, R290), and the
module is awake during a TRANSACTION and POLL_INDICATION's receive (R271, R280). -/
def State.PinsSound (s : State) : Prop :=
  (s.pins.resetN = false ↔ s.ctl = .mrLow) ∧
  (s.ctl = .trWake → s.pins.wakeN = false) ∧
  (s.ctl = .rrAttempt → s.corr.ctx = true → s.pins.wakeN = false) ∧
  (s.ctl = .pollReceive → s.pins.wakeN = false)

/-- The RX stream's arrival times never decrease, none is later than that of the last byte appended, and
that one is not later than `now` (R67). -/
def Env.Sound (e : Env) : Prop :=
  (e.rx.map Prod.snd).Pairwise (· ≤ ·) ∧ (∀ x ∈ e.rx, x.2 ≤ e.lastArrival) ∧ e.lastArrival ≤ e.now

/-- The operations at the host port are records of R120. -/
def State.PortSound (s : State) : Prop :=
  (s.host.busy = true → s.host.curOp.wf = true) ∧ ∀ op ∈ s.env.hostQueue, op.wf = true

/-- The result register, the queue and the last frame observed hold sound frames (R32, R53, R233, R40). -/
def State.FramesSound (s : State) : Prop :=
  s.host.result.Sound ∧ s.queue.Sound ∧ s.corr.Sound

/-- All the invariants together. -/
def State.Sound (s : State) : Prop :=
  s.FramesSound ∧ s.rsm.Sound ∧ s.ControlSound ∧ s.PinsSound ∧ s.env.Sound ∧ s.PortSound

end Machine
end Sys2Proof
end

