-- ==== Sys2Proof/Certificates/Slice0/Obligations.lean ====
section
/-! DEFINITION. The statements for the provers. Each docstring names the rule of spec/ it formalises; a
clause that rests on a choice of the model, or on an inference that the spec marks as its own, says so and
names the log entry or the sentence. Three choices recur: a Core that waits keeps the state as it is (log
entry 2), the field `log` is the model's own record of events, results and pin changes (log entry 16), and
what an RSM outcome causes happens in the step of the outcome (log entry 8). First the vocabulary the
statements share: results, pin writes and lists of instructions spelt out field by field. -/

namespace Sys2Proof
namespace Claims

open Machine

/-- A result that names no field but its status (R32). -/
def statusOnly (st : BitVec 8) : Result :=
  { status := st, frameValid := false, frame := none, isIndication := false, matched := false,
    checkOk := false, out := [] }

/-- A result that returns a frame (R32). -/
def withFrame (f : DecodedFrame) (ind matched : Bool) : Result :=
  { statusOnly 0x00#8 with frameValid := true, frame := some f, isIndication := ind, matched := matched }

/-- `result <- r` (R31): the result, `result_valid`, `op_busy`, and the model's record of it. -/
def ended (r : Result) (s : State) : State :=
  { s with
    host := { s.host with result := r, resultValid := true, busy := false }
    log := { s.log with results := s.log.results ++ [r] } }

/-- `PinWrite(wake_n, v)` (R62), with the model's record of a change of level. -/
def wakeDriven (v : Bool) (s : State) : State :=
  { s with
    pins := { s.pins with wakeN := v }
    log := { s.log with
      pins := s.log.pins ++
        if s.pins.wakeN = v then [] else [{ pin := .wake, level := v, time := s.env.now }] } }

/-- `PinWrite(reset_n, v)` (R62), with the model's record of a change of level. -/
def resetDriven (v : Bool) (s : State) : State :=
  { s with
    pins := { s.pins with resetN := v }
    log := { s.log with
      pins := s.log.pins ++
        if s.pins.resetN = v then [] else [{ pin := .reset, level := v, time := s.env.now }] } }

/-- Record events (R198). -/
def noted (es : List Event) (s : State) : State :=
  { s with log := { s.log with events := s.log.events ++ es } }

/-- The RSM started with a deadline and an expected code (R181), in a controller phase. -/
def receiving (d : Time) (e : Option Byte) (ph : CtlPhase) (s : State) : State :=
  { s with rsm := { s.rsm with deadline := d, expected := e, phase := .huntSync }, ctl := ph }

/-- The Core moves next. -/
def coreNext (s : State) : Prop := s.params.ok = true ∧ s.env.agenda = []

/-- It is the Core's turn: no other agent stands first on the agenda (log entry 2). -/
def coreTurn (s : State) : Prop := s.env.agenda.head? = none ∨ s.env.agenda.head? = some .core

/-- The Core starts the operation in `cur_op`: it is the Core's turn, and that operation is in progress with
no step of it taken (R31, R55). -/
def starting (s : State) : Prop := coreTurn s ∧ s.host.busy = true ∧ s.ctl = .idle

/-- An operation has been accepted and its first step is next (R121). -/
def accepted (op : HostOp) (s : State) : Prop :=
  coreNext s ∧ s.ctl = .idle ∧ s.host.busy = true ∧ s.host.curOp = op

/-- The operation a legal word of this selector stands for has this instruction as its meaning: the
instruction's own encoding carries the selector (R122). -/
def hasSelector (i : Instr) (sel : Byte) : Prop :=
  ∃ op, encodeOp i = some op ∧ (Header.ofBits op.header).op = sel

/-- The step from `s` to `t` finishes a correlation exhausted (R262): it ends the last attempt with a result
that is no match. -/
def finishesExhausted (s t : State) : Prop :=
  s.ctl = .rrAttempt ∧ s.env.agenda.head? ≠ some .rst ∧ t.ctl = .idle ∧ t.host.result.matched = false

/-- The Façade call becomes this one TRANSACTION, in legacy mode and with the default 8 retries (R125). -/
def issues (pr : Params) (tm : BitVec 32) (c : FacadeCall) (cmd : Byte) (p : List Byte)
    (len : Option Byte) : Prop :=
  facadeIssue pr tm c = .ok (.transaction cmd p tm len 8#8 false)

/-- The command codes (R116). -/
def commandInstrs : List Instr :=
  [.moduleResetCmdReq, .eepromWriteReq, .eepromReadReq, .getFwVersionReq, .getSerialNoReq,
   .getDevEuiReq, .joinReq, .getActivationStatusReq, .setAppKeyReq, .txMsgReq, .setChParametersReq]

/-- The reply codes (R116). -/
def replyInstrs : List Instr :=
  [.moduleResetCmdReply, .eepromWriteReply, .eepromReadReply, .getFwVersionReply, .getSerialNoReply,
   .getDevEuiReply, .joinReply, .getActivationStatusReply, .setAppKeyReply, .txMsgReply,
   .setChParametersReply]

/-- The indication codes (R116). -/
def indicationInstrs : List Instr :=
  [.joinResultInd, .confirmedTxResultInd, .unconfirmedTxResultInd, .rxMsgInd]

/-- The 11 host rows of spec/opcode_table.json: match and mask. -/
def hostRows : List (BitVec 96 × BitVec 96) :=
  [(0x000000000000000000000001#96, 0x00000000FF00000000FF00FF#96),
   (0x000000000000000000000002#96, 0x00000000FF00000000FF00FF#96),
   (0x000000000000000000000003#96, 0x00000000FF00000000FF00FF#96),
   (0x000000000000000000000004#96, 0x00000000FFFFFF0000FE00FF#96),
   (0x000000000000000000000005#96, 0x00000000FFFFFF0000F900FF#96),
   (0x000000000000000000000006#96, 0x00000000FFFFFF0000FF00FF#96),
   (0x000000000000000000000007#96, 0x00000000FFFFFF0000FF00FF#96),
   (0x000000000000000000000008#96, 0x00000000FF00000000F900FF#96),
   (0x000000000000000000000009#96, 0x00000000FFFFFF0000FF00FF#96),
   (0x00000000000000000000000A#96, 0x00000000FFFFFF0000FF00FF#96),
   (0x00000000000000000000000B#96, 0x00000000FFFFFF0000FF00FF#96)]

/-- The conditions (a) to (d) of R123 on a header. -/
def isIllegal (h : Header) : Prop :=
  (h.op = 0x00#8 ∨ 0x0C#8 ≤ h.op) ∨
  (h.rsvdLo ≠ 0#5 ∨ h.rsvdHi ≠ 0#8) ∨
  ((h.cv = true ∧ h.op ≠ 0x04#8) ∨ (h.lv = true ∧ h.op ∉ [0x05#8, 0x08#8]) ∨
    (h.strict = true ∧ h.op ∉ [0x05#8, 0x08#8])) ∨
  (h.plen ≠ 0#16 ∧ h.op ∉ [0x01#8, 0x02#8, 0x03#8, 0x08#8])

/-- Two headers that differ at most in multi-bit fields which the row of R122 does not read, or in
`EXP_LEN` with `LV = 0` (R123). -/
def sameReadFields (h k : Header) : Prop :=
  k.op = h.op ∧ k.cv = h.cv ∧ k.lv = h.lv ∧ k.strict = h.strict ∧ k.rsvdLo = h.rsvdLo ∧
  k.rsvdHi = h.rsvdHi ∧ k.plen = h.plen ∧
  (h.op ∈ [0x01#8, 0x03#8, 0x04#8, 0x05#8, 0x08#8] → k.code = h.code) ∧
  (h.op ∈ [0x05#8, 0x08#8] → h.lv = true → k.expLen = h.expLen) ∧
  (h.op ∈ [0x05#8, 0x08#8] → k.maxRetries = h.maxRetries) ∧
  (h.op ∈ [0x04#8, 0x05#8, 0x07#8, 0x08#8] → k.timeout = h.timeout)

/-- An operation on the queue. -/
inductive QueueOp where
  | enqueue (f : DecodedFrame)
  | dequeue

/-- Run queue operations on the ring buffer: what the dequeues return, and the queue after them. -/
def runRing : List QueueOp → Queue → List (Option DecodedFrame) × Queue
  | [], q => ([], q)
  | .enqueue f :: ops, q => runRing ops (q.push f)
  | .dequeue :: ops, q =>
    if q.isEmpty then
      let r := runRing ops q
      (none :: r.1, r.2)
    else
      let r := runRing ops q.pop
      (some q.oldest :: r.1, r.2)

/-- Run queue operations on a list of at most 32 frames, oldest first: the FIFO of R230. -/
def runFifo : List QueueOp → List DecodedFrame → List (Option DecodedFrame) × List DecodedFrame
  | [], l => ([], l)
  | .enqueue f :: ops, l => runFifo ops (if l.length = 32 then l else l ++ [f])
  | .dequeue :: ops, [] =>
    let r := runFifo ops []
    (none :: r.1, r.2)
  | .dequeue :: ops, f :: l =>
    let r := runFifo ops l
    (some f :: r.1, r.2)

end Claims
end Sys2Proof

open Sys2Proof Sys2Proof.Machine Sys2Proof.Claims

/-! ## Encodings -/

/-- The decoder reads back what the encoder writes, for every instruction and every operand (R116, R120,
R122, R124). -/
def Obligations.DecodeEncodeRoundTrip : Prop :=
  ∀ (i : Instr) (rest : List Byte), i.wf = true →
    decode i.port (Sys2Proof.encode i ++ rest) = .ok (i, rest)

/-- A record decodes exactly when its header matches a row of the opcode table under the row's mask. -/
def Obligations.LegalHeadersMatchTheOpcodeTable : Prop :=
  ∀ op : HostOp, op.wf = true →
    ((∃ i, decodeOp op = .ok i) ↔ ∃ r ∈ hostRows, op.header &&& r.2 = r.1)

/-- Operand assembly (R124), by the selectors of R122 and the bit places of R120. -/
def Obligations.OperandAssembly : Prop :=
  (∀ (h : BitVec 96) (d : List Byte) (i : Instr), decodeOp { header := h, data := d } = .ok i →
    let code := h.extractLsb' 8 8
    let expected := if h.getLsbD 16 then some code else none
    let expLen := if h.getLsbD 17 then some (h.extractLsb' 24 8) else none
    let strict := h.getLsbD 18
    let retries := h.extractLsb' 32 8
    let timeout := h.extractLsb' 64 32
    d.length = (h.extractLsb' 40 16).toNat ∧
    (h.extractLsb' 0 8, i) ∈
      [(0x01#8, Instr.encode code d), (0x02#8, .check d), (0x03#8, .send code d),
       (0x04#8, .receive timeout expected),
       (0x05#8, .requestReply code timeout expLen retries strict), (0x06#8, .dequeue),
       (0x07#8, .pollIndication timeout),
       (0x08#8, .transaction code d timeout expLen retries strict), (0x09#8, .wakeup),
       (0x0A#8, .sleep), (0x0B#8, .moduleReset)]) ∧
  (∀ t : BitVec 32, (timeoutTime t).toNat = t.toNat) ∧
  (∀ c t n st, (AsmLine.requestReply c t n none st).instr = some (.requestReply c t n 8#8 st)) ∧
  (∀ c p t n st, (AsmLine.transaction c p t n none st).instr = some (.transaction c p t n 8#8 st))

/-- Illegal host operations (R123): one that meets (a), (b), (c) or (d) ends with `ILLEGAL_OP` and
changes nothing else; any other decodes; and a field that its row does not read changes nothing. -/
def Obligations.IllegalHostOperations : Prop :=
  ∀ op : HostOp, op.wf = true →
    (isIllegal (Header.ofBits op.header) →
      ∀ s, accepted op s → step s = .next (ended (statusOnly 0x06#8) s)) ∧
    (¬ isIllegal (Header.ofBits op.header) → ∃ i, decodeOp op = .ok i) ∧
    (∀ k, sameReadFields (Header.ofBits op.header) k →
      decodeOp { op with header := k.toBits } = decodeOp op)

/-- The CODE map (R112, R116): a byte is a named code exactly when its class is not UNKNOWN, and 229
values are UNKNOWN. That the code sets are disjoint and SYNC is in none of them is an inference that the
spec marks as its own (R8: "derived: from rule R7, by listing the sets"). -/
def Obligations.CodeMapClasses : Prop :=
  Config.replySet = [0xB0#8, 0xB2#8, 0xB3#8, 0xB4#8, 0xB5#8, 0xB6#8, 0xC0#8, 0xC2#8, 0xC3#8, 0xC6#8,
    0xD7#8] ∧
  (∀ c ∈ Config.cmdSet, c ∉ Config.indSet) ∧
  (∀ c ∈ Config.replySet, c ∉ Config.indSet ∧ c ∉ Config.cmdSet) ∧
  Config.sync ∉ Config.cmdSet ∧ Config.sync ∉ Config.indSet ∧ Config.sync ∉ Config.replySet ∧
  (∀ b : Byte, (∃ i, decodeCode b = .ok i ∧ i.codeByte = some b) ↔ classOf b ≠ .unknown) ∧
  ((List.range 256).filter fun n => classOf (BitVec.ofNat 8 n) = .unknown).length = 229 ∧
  (∀ i ∈ commandInstrs, i.codeByte.map classOf = some .command) ∧
  (∀ i ∈ replyInstrs, i.codeByte.map classOf = some .reply) ∧
  (∀ i ∈ indicationInstrs, i.codeByte.map classOf = some .indication) ∧
  Instr.syncFiller.codeByte.map classOf = some .syncValue

/-- Words of spec/95_test_vectors.md 2.1 decode to the operations they are listed for. The two 8-bit words
are not listed there: 0xC6 is the CODE value TX_MSG_REPLY of R116 and 0xAA is SYNC (R111); that a word of at
most 8 bits which names a CODE is read as a byte of the RX stream is the model's choice (log entry 5). -/
def Obligations.SpecWordsDecode : Prop :=
  decodeTableWord 96 0x000000000000000000003401 = some (.encode 0x34#8 []) ∧
  decodeTableWord 96 0x00002710000000000001B404 = some (.receive 10000#32 (some 0xB4#8)) ∧
  decodeTableWord 96 0x000027100000002801024005 =
    some (.requestReply 0x40#8 10000#32 (some 1#8) 40#8 false) ∧
  decodeTableWord 96 0x000186A00000000204063508 =
    some (.transaction 0x35#8 [] 100000#32 (some 4#8) 2#8 true) ∧
  decodeTableWord 96 0x00000000000000000000000B = some .moduleReset ∧
  decodeTableWord 96 0x00000000000000000000000C = none ∧
  decodeTableWord 8 0xC6 = some .txMsgReply ∧
  decodeTableWord 8 0xAA = some .syncFiller

/-! ## A step runs the decoded instruction -/

/-- The accepted operation is decoded and run (R121, R122). -/
def Obligations.StepRunsHostInstruction : Prop :=
  ∀ (s : State) (i : Instr), s.params.ok = true → s.ctl = .idle → s.host.busy = true →
    decodeOp s.host.curOp = .ok i → i.wf = true →
      (s.env.agenda = [] → step s = exec i s) ∧
      (∀ rest, s.env.agenda = .core :: rest → step s = exec i { s with env.agenda := rest })

/-- A counted byte at the RX head is popped (R183). That a CODE row of the opcode table means the RSM's
step on its byte is the model's reading (log entry 9). In HUNT_CODE a named code is run as its
instruction, and in HUNT_SYNC the byte 0xAA is; every byte is the RSM's byte step, in every phase in
which the RSM runs. At `R_IDLE` no byte step is enabled (R183): a CODE then changes nothing (R86). -/
def Obligations.StepRunsCodeInstruction : Prop :=
  (∀ (i : Instr) (b : Byte) (s : State), i.codeByte = some b →
    exec i s = byteStep b s ∧ (s.rsm.phase = .idle → exec i s = .next s)) ∧
  ∀ (s : State) (b : Byte) (a : Time) (rest : List (Byte × Time)), coreNext s →
    s.ctl.receiving = true → s.rsm.phase ≠ .idle → s.env.rx = (b, a) :: rest → a < s.rsm.deadline →
      step s = byteStep b { s with env.rx := rest } ∧
      (∀ i, decodeCode b = .ok i → s.rsm.phase = .huntCode ∨ (s.rsm.phase = .huntSync ∧ b = 0xAA#8) →
        i.wf = true ∧ step s = exec i { s with env.rx := rest })

/-- Issue and hold (R121; that several operations may wait at the port in order is the model's choice, log
entry 2): the Host may present an operation at any time; the Core accepts the first one
presented when `op_busy = 0`, in one step; and while `op_busy = 1` the operations presented stay
presented and `cur_op` stays. With nothing in progress and nothing presented the Core changes nothing,
whatever the last operation left in `cur_op`; and a turn given to the Core on the agenda is the step it takes
with the agenda empty (both log entry 2). -/
def Obligations.PresentedOperationHeld : Prop :=
  (∀ (s : State) (op : HostOp) (more : List Turn), s.params.ok = true → op.wf = true →
    s.env.agenda = .host op :: more →
      step s = .next { s with env.agenda := more, env.hostQueue := s.env.hostQueue ++ [op] }) ∧
  (∀ (s : State) (op : HostOp) (more : List HostOp), coreNext s → s.ctl = .idle →
    s.host.busy = false → s.env.hostQueue = op :: more →
      step s = .next { s with host.curOp := op, host.busy := true, env.hostQueue := more }) ∧
  (∀ s t : State, s.host.busy = true → step s = .next t →
    (∃ added, t.env.hostQueue = s.env.hostQueue ++ added) ∧
    (s.env.agenda.head? ≠ some .rst → t.host.curOp = s.host.curOp)) ∧
  (∀ s : State, coreNext s → s.ctl = .idle → s.host.busy = false → s.env.hostQueue = [] →
    step s = .next s) ∧
  (∀ (s : State) (more : List Turn),
    let alone := step { s with env.agenda := [] }
    let turn := step { s with env.agenda := .core :: more }
    (∀ t, alone = .next t → turn = .next { t with env.agenda := more }) ∧
    (∀ r, alone = .refused r → turn = .refused r) ∧
    (∀ f, alone = .fault f → turn = .fault f))

/-! ## Codec -/

/-- The checksum arithmetic (R150): `sum8` is the sum modulo 256 and `checksum` is its two's-complement
negation. That the bytes and their checksum sum to 0 is an inference that the spec marks as its own (R150:
"derived from the definition"). -/
def Obligations.ChecksumArithmetic : Prop :=
  ∀ l : List Byte,
    (sum8 l).toNat = (l.map BitVec.toNat).sum % 256 ∧
    checksum l = ((sum8 l ^^^ 0xFF#8) + 1#8) &&& 0xFF#8 ∧
    (checksum l).toNat = (256 - (sum8 l).toNat) % 256 ∧
    (checksum l = 0x00#8 ↔ sum8 l = 0x00#8) ∧
    sum8 (l ++ [checksum l]) = 0#8

/-- The round trip, an inference that the spec marks as its own (the sentence of R155): CHECK of an
encoded frame returns `check_ok = 1`. -/
def Obligations.EncodedFramesPassCheck : Prop :=
  ∀ (c : Byte) (p : List Byte) (s : State), p.length ≤ 255 →
    exec (.check (frame c p)) s = .next (ended { statusOnly 0x00#8 with checkOk := true } s)

/-- ENCODE (R151, R153): the frame in `out`, and nothing else changes. -/
def Obligations.EncodeReturnsFrame : Prop :=
  ∀ (c : Byte) (p : List Byte) (s : State), p.length ≤ 255 →
    hasSelector (.encode c p) 0x01#8 ∧
    ∃ cs : Byte, sum8 ([0xAA#8, c, BitVec.ofNat 8 p.length] ++ p ++ [cs]) = 0#8 ∧
      exec (.encode c p) s = .next (ended
        { statusOnly 0x00#8 with out := [0xAA#8, c, BitVec.ofNat 8 p.length] ++ p ++ [cs] } s)

/-- CHECK (R156): `check_ok` says whether the sum of all the bytes is 0 modulo 256. -/
def Obligations.CheckTestsTheSum : Prop :=
  ∀ (d : List Byte) (s : State),
    hasSelector (.check d) 0x02#8 ∧
    exec (.check d) s = .next (ended
      { statusOnly 0x00#8 with checkOk := decide ((d.map BitVec.toNat).sum % 256 = 0) } s)

/-- SEND (R158): the frame goes to the TX stream; no pin moves and RX is not read. -/
def Obligations.SendWritesFrame : Prop :=
  ∀ (c : Byte) (p : List Byte) (s : State), p.length ≤ 255 →
    hasSelector (.send c p) 0x03#8 ∧
    ∃ cs : Byte, sum8 ([0xAA#8, c, BitVec.ofNat 8 p.length] ++ p ++ [cs]) = 0#8 ∧
      exec (.send c p) s = .next (ended (statusOnly 0x00#8)
        { s with env.tx := s.env.tx ++ ([0xAA#8, c, BitVec.ofNat 8 p.length] ++ p ++ [cs]) })

/-- The payload-size check (R152): with more than 255 bytes the three framing operations change nothing
but the result. -/
def Obligations.PayloadTooLargeChangesOnlyResult : Prop :=
  ∀ (c : Byte) (p : List Byte) (s : State), 255 < p.length →
    exec (.encode c p) s = .next (ended (statusOnly 0x04#8) s) ∧
    exec (.send c p) s = .next (ended (statusOnly 0x04#8) s) ∧
    ∀ t n m st, exec (.transaction c p t n m st) s = .next (ended (statusOnly 0x04#8) s)

/-! ## Indication Queue -/

/-- DEQUEUE (R236): the oldest entry, or `EMPTY` with the queue unchanged. -/
def Obligations.DequeueReturnsOldest : Prop :=
  hasSelector .dequeue 0x06#8 ∧
  ∀ s : State,
    (s.queue.count = 0#6 → exec .dequeue s = .next (ended (statusOnly 0x05#8) s)) ∧
    (∀ f, s.queue.count ≠ 0#6 → s.queue.entry[s.queue.head.toNat]? = some f →
      exec .dequeue s = .next (ended (withFrame f (decide (f.code ∈ Config.indSet)) false)
        { s with queue.head := s.queue.head + 1#5, queue.count := s.queue.count - 1#6 }))

/-- ENQUEUE and the drop-newest policy (R231, R232): on a full queue only the history changes; otherwise
the frame becomes the newest entry and the older entries stay as they are. -/
def Obligations.EnqueueDropsNewest : Prop :=
  ∀ (f : DecodedFrame) (s : State), s.queue.count.toNat ≤ 32 →
    (s.queue.count.toNat = 32 → enqueue f s = noted [.queueDrop f] s) ∧
    (s.queue.count.toNat < 32 →
      ∃ q, enqueue f s = { s with queue := q } ∧ q.head = s.queue.head ∧
        q.count = s.queue.count + 1#6 ∧ q.frames = s.queue.frames ++ [f])

/-- The ring buffer is a FIFO of at most 32 frames (R230; the order is an inference that the spec marks as
its own, the sentence of R237): any sequence of enqueues and dequeues
returns the frames that were not dropped, in order, each once. -/
def Obligations.QueueRefinesBoundedFifo : Prop :=
  ∀ (ops : List QueueOp) (q : Queue), q.count.toNat ≤ 32 →
    (runRing ops q).1 = (runFifo ops q.frames).1 ∧
    (runRing ops q).2.frames = (runFifo ops q.frames).2

/-- Backpressure, an inference that the spec marks as its own (the sentence of R238): from an empty queue,
33 enqueues leave the first 32 frames. -/
def Obligations.QueueBackpressure : Prop :=
  ∀ (q : Queue) (fs : List DecodedFrame), q.count = 0#6 → fs.length = 33 →
    (fs.foldl (fun q f => q.push f) q).count.toNat = 32 ∧
    (fs.foldl (fun q f => q.push f) q).frames = fs.take 32

/-- The queue keeps its entries across operations (R239): a block reset removes them all; any other
step leaves them, or adds an indication at the end, in the Core's step in an attempt of the correlator (R233),
or removes the oldest, in the Core's step that runs DEQUEUE or POLL_INDICATION, in progress. -/
def Obligations.QueueEntriesPersist : Prop :=
  ∀ s t : State, s.queue.count.toNat ≤ 32 → step s = .next t →
    if s.env.agenda.head? = some .rst then t.queue.frames = []
    else
      t.queue.frames = s.queue.frames ∨
      ((∃ f, t.queue.frames = s.queue.frames ++ [f] ∧ f.code ∈ Config.indSet) ∧
        coreTurn s ∧ s.ctl = .rrAttempt) ∨
      ((∃ f, s.queue.frames = f :: t.queue.frames) ∧ starting s ∧
        (decodeOp s.host.curOp = .ok .dequeue ∨
          ∃ tm, decodeOp s.host.curOp = .ok (.pollIndication tm)))

/-! ## Receive State Machine -/

/-- 0xAA in HUNT_SYNC starts a frame and in HUNT_CODE is filler (R184, R185); any other byte in HUNT_SYNC
is discarded (R184). -/
def Obligations.SyncAndFillerSteps : Prop :=
  (∀ s : State, s.rsm.phase = .huntSync →
    exec .syncFiller s = .next { s with rsm.sum := 0xAA#8, rsm.phase := .huntCode }) ∧
  (∀ s : State, s.rsm.phase = .huntCode → exec .syncFiller s = .next (noted [.filler] s)) ∧
  (∀ (b : Byte) (s : State), s.rsm.phase = .huntSync → b ≠ 0xAA#8 →
    byteStep b s = .next (noted [.discard b] s))

/-- A command code in HUNT_CODE is accepted when it is the expected code, and otherwise makes the RSM
resynchronize (R117, R186). The instructions: the eleven command codes. -/
def Obligations.CommandCodesInHuntCode : Prop :=
  ∀ i ∈ commandInstrs, ∀ (b : Byte) (s : State), i.codeByte = some b → s.rsm.phase = .huntCode →
    (s.rsm.expected = some b →
      exec i s = .next { s with rsm.code := b, rsm.sum := s.rsm.sum + b, rsm.phase := .readLen }) ∧
    (s.rsm.expected ≠ some b →
      exec i s = .next (noted [.unexpectedByte b] { s with rsm.phase := .huntSync }))

/-- A reply code in HUNT_CODE is accepted when it is the expected code or none is expected, and otherwise
makes the RSM resynchronize (R117, R186). The instructions: the eleven reply codes. -/
def Obligations.ReplyCodesInHuntCode : Prop :=
  ∀ i ∈ replyInstrs, ∀ (b : Byte) (s : State), i.codeByte = some b → s.rsm.phase = .huntCode →
    (s.rsm.expected = some b ∨ s.rsm.expected = none →
      exec i s = .next { s with rsm.code := b, rsm.sum := s.rsm.sum + b, rsm.phase := .readLen }) ∧
    (s.rsm.expected ≠ some b → s.rsm.expected ≠ none →
      exec i s = .next (noted [.unexpectedByte b] { s with rsm.phase := .huntSync }))

/-- An indication code in HUNT_CODE is accepted whatever is expected (R186). The instructions: the four
indication codes. -/
def Obligations.IndicationCodesInHuntCode : Prop :=
  ∀ i ∈ indicationInstrs, ∀ (b : Byte) (s : State), i.codeByte = some b → s.rsm.phase = .huntCode →
    exec i s = .next { s with rsm.code := b, rsm.sum := s.rsm.sum + b, rsm.phase := .readLen }

/-- The HUNT_CODE code step on every byte that is not 0xAA, named or UNKNOWN (R186). -/
def Obligations.HuntCodeStep : Prop :=
  ∀ (b : Byte) (s : State), s.rsm.phase = .huntCode → b ≠ 0xAA#8 →
    let ok := (∃ c, s.rsm.expected = some c ∧ (b = c ∨ b ∈ Config.indSet)) ∨
      (s.rsm.expected = none ∧
        ((b.getLsbD 7 = true ∧ b &&& 0x7F#8 ∈ Config.cmdSet) ∨ b ∈ Config.indSet))
    (ok → byteStep b s =
      .next { s with rsm.code := b, rsm.sum := s.rsm.sum + b, rsm.phase := .readLen }) ∧
    (¬ ok → byteStep b s = .next (noted [.unexpectedByte b] { s with rsm.phase := .huntSync }))

/-- READ_LEN (R187): every byte value is the length. READ_BODY (R188, R189, R190): payload bytes are
stored and summed; at the checksum byte the frame is handed over if the sum is 0, and otherwise the RSM
restarts with the same deadline and expected code. -/
def Obligations.LengthAndBodySteps : Prop :=
  (∀ (b : Byte) (s : State), s.rsm.phase = .readLen →
    byteStep b s = .next
      { s with rsm.len := b, rsm.sum := s.rsm.sum + b, rsm.count := 0#9, rsm.phase := .readBody }) ∧
  ∀ (b : Byte) (s : State), s.rsm.phase = .readBody → s.rsm.count.toNat ≤ s.rsm.len.toNat →
    let k := s.rsm.count.toNat
    let n := s.rsm.len.toNat
    (∀ h : k < n, byteStep b s = .next
      { s with
        rsm.sum := s.rsm.sum + b
        rsm.count := s.rsm.count + 1#9
        rsm.buf := s.rsm.buf.set k b (Nat.lt_of_lt_of_le h (Nat.le_of_lt_succ s.rsm.len.isLt)) }) ∧
    (k = n → s.rsm.sum + b ≠ 0#8 → byteStep b s = .next (noted [.checksumMismatch]
      { s with rsm.sum := s.rsm.sum + b, rsm.count := s.rsm.count + 1#9, rsm.phase := .huntSync })) ∧
    (k = n → s.rsm.sum + b = 0#8 → byteStep b s =
      deliver
        (.frame { code := s.rsm.code, length := s.rsm.len, payload := s.rsm.buf.toList.take n }
          (decide (s.rsm.code ∈ Config.indSet)))
        { s with rsm.sum := s.rsm.sum + b, rsm.count := s.rsm.count + 1#9, rsm.phase := .idle })

/-- The big-step form is what the Core's steps compute, an inference that the spec marks as its own (R197:
"This function is equivalent to the small-step rules"): from any point of a host RECEIVE, with the
time at the deadline where the outcome is a timeout, some number of steps ends the operation with the
big-step outcome, the RX stream it leaves and the events it records. The receive is the host's RECEIVE, and
the schedule has steps of the Core only. -/
def Obligations.BigStepIsTheRunOfByteSteps : Prop :=
  ∀ s : State, coreNext s → s.ctl = .receive → s.rsm.phase ≠ .idle →
    let g := bigStep s.env.rx s.rsm
    (g.outcome = .timedOut →
      s.rsm.deadline ≤ s.env.now ∧
        s.env.now.toNat ≤ s.rsm.deadline.toNat + s.params.tOverrun.toNat) →
    ∃ k, Host.Core.run Sys2Proof.core k s =
      .next (finishReceive g.outcome (noted g.events { s with rsm := g.rsm, env.rx := g.rx }))

/-- Codec and RSM agree, an inference that the spec marks as its own (the sentence of R160): an encoded
frame on the RX stream, every byte before the deadline, is returned by a receive in HUNT_SYNC that accepts
its code, and the bytes after it stay. -/
def Obligations.CodecAndRsmAgree : Prop :=
  ∀ (c : Byte) (p : List Byte) (bs rest : List (Byte × Time)) (r : Rsm), p.length ≤ 255 →
    c ≠ 0xAA#8 → codeOk c r.expected = true → r.phase = .huntSync →
    bs.map Prod.fst = frame c p → (∀ x ∈ bs, x.2 < r.deadline) →
      (bigStep (bs ++ rest) r).outcome =
        .frame { code := c, length := BitVec.ofNat 8 p.length, payload := p }
          (decide (c ∈ Config.indSet)) ∧
      (bigStep (bs ++ rest) r).rx = rest ∧ (bigStep (bs ++ rest) r).events = []

/-- A frame the RSM hands over (its registers sound, RsmSoundKept) is a valid wire frame whose code it
could accept (R114, R186, R188, R190): the byte consumed is the checksum of what came before it. -/
def Obligations.AcceptedFramesAreValid : Prop :=
  ∀ (b : Byte) (r : Rsm) (f : DecodedFrame) (ind : Bool), r.Sound →
    (rsmByte b r).outcome = some (.frame f ind) →
      f.wf = true ∧ f.code ≠ 0xAA#8 ∧ codeOk f.code r.expected = true ∧
      ind = decide (f.code ∈ Config.indSet) ∧
      b = checksum (frameHeader f.code f.payload ++ f.payload) ∧
      sum8 (frame f.code f.payload) = 0#8

/-- Every step keeps the RSM's registers as their rules say (R46, R47, R186). -/
def Obligations.RsmSoundKept : Prop :=
  ∀ s t : State, s.rsm.Sound → step s = .next t → t.rsm.Sound

/-- The timeout step (R191): with no counted byte at the RX head the Core reports the timeout once `now`
has reached the deadline (within the bound of R192), and before that it waits (the state stays: log entry
2). -/
def Obligations.TimeoutStep : Prop :=
  ∀ s : State, coreNext s → s.ctl.receiving = true → s.rsm.phase ≠ .idle →
    (∀ x, s.env.rx.head? = some x → s.rsm.deadline ≤ x.2) →
    (s.rsm.deadline ≤ s.env.now →
      s.env.now.toNat ≤ s.rsm.deadline.toNat + s.params.tOverrun.toNat →
        step s = deliver .timedOut
          (noted [.timeout s.rsm.phase] { s with rsm.phase := .idle })) ∧
    (s.env.now < s.rsm.deadline → step s = .next s)

/-- The reporting bound (R192; how the model holds Time to it is log entry 12): a timeout is recorded only
within `T_OVERRUN` of the deadline, and while the timeout step is enabled Time does not advance past that
bound. -/
def Obligations.TimeoutReportingBound : Prop :=
  (∀ (s t : State) (ph : RsmPhase), step s = .next t →
    t.log.events = s.log.events ++ [.timeout ph] →
      s.rsm.deadline ≤ s.env.now ∧
        s.env.now.toNat ≤ s.rsm.deadline.toNat + s.params.tOverrun.toNat) ∧
  (∀ (s t : State) (n : Nat) (more : List Turn), s.env.agenda = .time n :: more →
    timeoutEnabled s = true → step s = .next t →
      n ≤ s.rsm.deadline.toNat + s.params.tOverrun.toNat)

/-- RECEIVE starts a receive (R180, R181, R182): the deadline is `now + timeout`, and no byte is read. -/
def Obligations.ReceiveStarts : Prop :=
  ∀ (tm : BitVec 32) (e : Option Byte) (s : State), s.env.now.toNat + tm.toNat < 2 ^ 64 →
    hasSelector (.receive tm e) 0x04#8 ∧
    exec (.receive tm e) s = .next (receiving (s.env.now + tm.setWidth 64) e .receive s)

/-- A computed time past 2^64 - 1 refuses the run (R66, R182; 93 U10), wherever an operation computes one:
at its start, at a later attempt of a correlation, when TRANSACTION has transmitted, and at `T_SETTLE` of
MODULE_RESET (for the waits of TRANSACTION and MODULE_RESET: log entry 11). So does Time's advance past it. -/
def Obligations.OverflowRefusesTheRun : Prop :=
  (∀ (c : Byte) (tm : BitVec 32) (e n : Option Byte) (m : Byte) (st : Bool) (p : List Byte) (s : State),
    (2 ^ 64 ≤ s.env.now.toNat + tm.toNat →
      exec (.receive tm e) s = .refused .deadlineOverflow ∧
      (m ≠ 0#8 → exec (.requestReply c tm n m st) s = .refused .deadlineOverflow) ∧
      (s.queue.count = 0#6 → exec (.pollIndication tm) s = .refused .deadlineOverflow) ∧
      (coreNext s → s.ctl = .trWake → s.twUntil ≤ s.env.now → m ≠ 0#8 →
        decodeOp s.host.curOp = .ok (.transaction c p tm n m st) →
          step s = .refused .deadlineOverflow)) ∧
    (2 ^ 64 ≤ s.env.now.toNat + s.params.tWake.toNat → p.length ≤ 255 →
      exec (.transaction c p tm n m st) s = .refused .deadlineOverflow) ∧
    (2 ^ 64 ≤ s.env.now.toNat + s.params.tResetLow.toNat →
      exec .moduleReset s = .refused .deadlineOverflow)) ∧
  (∀ s : State, coreNext s → s.ctl = .mrLow → s.mrUntil ≤ s.env.now →
    2 ^ 64 ≤ s.env.now.toNat + s.params.tSettle.toNat → step s = .refused .deadlineOverflow) ∧
  (∀ s : State, s.corr.remaining ≠ 0#8 → 2 ^ 64 ≤ s.env.now.toNat + s.corr.timeout.toNat →
    nextOrFinish s = .refused .deadlineOverflow ∧
    (s.ctl = .rrAttempt →
      deliver .timedOut s = .refused .deadlineOverflow ∧
      (∀ f, deliver (.frame f true) s = .refused .deadlineOverflow) ∧
      (∀ f n, s.corr.expLen = some n → f.length ≠ n →
        deliver (.frame f false) s = .refused .deadlineOverflow))) ∧
  (∀ (s : State) (n : Nat) (more : List Turn), s.params.ok = true → s.env.agenda = .time n :: more →
    2 ^ 64 ≤ n → step s = .refused .clockOverflow)

/-- The outcome of a RECEIVE or of a POLL_INDICATION receive goes to the result register, and no pin
moves (R180, R195, R280). -/
def Obligations.BareReceiveEnds : Prop :=
  ∀ s : State, s.ctl = .receive ∨ s.ctl = .pollReceive →
    (∀ f ind, deliver (.frame f ind) s =
      .next { ended (withFrame f ind false) s with ctl := .idle }) ∧
    deliver .timedOut s = .next { ended (statusOnly 0x01#8) s with ctl := .idle }

/-! ## Correlator -/

/-- REQUEST_REPLY with at least one attempt (R260, R261): the correlator registers, and the first attempt
with the reply code expected. -/
def Obligations.RequestReplyStarts : Prop :=
  ∀ (c : Byte) (tm : BitVec 32) (n : Option Byte) (m : Byte) (st : Bool) (s : State),
    m ≠ 0#8 → s.env.now.toNat + tm.toNat < 2 ^ 64 →
      hasSelector (.requestReply c tm n m st) 0x05#8 ∧
      exec (.requestReply c tm n m st) s =
        .next (receiving (s.env.now + tm.setWidth 64) (some (c ||| 0x80#8)) .rrAttempt
          { s with corr := { cmd := c, expLen := n, timeout := tm, remaining := m - 1#8, strict := st,
                             last := none, ctx := false } })

/-- Zero attempts (R264): `NO_REPLY_AFTER_RETRIES` at once, with no receive and no RX byte consumed. -/
def Obligations.ZeroAttempts : Prop :=
  ∀ (c : Byte) (tm : BitVec 32) (n : Option Byte) (st : Bool) (s : State),
    exec (.requestReply c tm n 0#8 st) s =
      .next { ended (statusOnly 0x02#8) s with
        corr := { cmd := c, expLen := n, timeout := tm, remaining := 0#8, strict := st, last := none,
                  ctx := false }
        ctl := .idle }

/-- Attempts (R261, R265, R266, R267): the next attempt has a fresh deadline and one attempt fewer left;
a timeout, an indication (which is enqueued) and a reply of the wrong length each use up the attempt; a
reply of the right length ends the correlation; and such a reply has the code `corr_cmd | 0x80`. -/
def Obligations.CorrelatorAttempts : Prop :=
  (∀ s : State, s.corr.remaining = 0#8 → nextOrFinish s = .next (finishExhausted s)) ∧
  (∀ s : State, s.corr.remaining ≠ 0#8 → s.env.now.toNat + s.corr.timeout.toNat < 2 ^ 64 →
    nextOrFinish s = .next (receiving (s.env.now + s.corr.timeout.setWidth 64)
      (some (s.corr.cmd ||| 0x80#8)) .rrAttempt
      { s with corr.remaining := s.corr.remaining - 1#8 })) ∧
  (∀ s : State, s.ctl = .rrAttempt →
    deliver .timedOut s = nextOrFinish s ∧
    (∀ f, s.params.lastFrame = .anyFrame →
      deliver (.frame f true) s = nextOrFinish (enqueue f { s with corr.last := some f })) ∧
    (∀ f, s.params.lastFrame = .repliesOnly →
      deliver (.frame f true) s = nextOrFinish (enqueue f s)) ∧
    (∀ f n, s.corr.expLen = some n → f.length ≠ n →
      deliver (.frame f false) s = nextOrFinish { s with corr.last := some f }) ∧
    (∀ f, s.corr.expLen = none ∨ s.corr.expLen = some f.length →
      deliver (.frame f false) s = .next (finishMatched f s))) ∧
  (∀ (s : State) (b : Byte) (f : DecodedFrame), s.ControlSound → s.rsm.Sound → s.ctl = .rrAttempt →
    (rsmByte b s.rsm).outcome = some (.frame f false) → f.code = s.corr.cmd ||| 0x80#8)

/-- Finishing (R262): a match, the legacy best effort, and no reply; a TRANSACTION's end drives the
wakeup pin high in the same step. -/
def Obligations.FinishingResults : Prop :=
  ∀ s : State,
    let fin := fun r : Result =>
      { (if s.corr.ctx then wakeDriven true (ended r s) else ended r s) with ctl := CtlPhase.idle }
    (∀ f, finishMatched f s = fin (withFrame f false true)) ∧
    (∀ g, s.corr.strict = false → s.corr.last = some g →
      finishExhausted s = fin (withFrame g (decide (g.code ∈ Config.indSet)) false)) ∧
    (s.corr.strict = true ∨ s.corr.last = none → finishExhausted s = fin (statusOnly 0x02#8))

/-- Strict mode (R263): exhaustion gives `NO_REPLY_AFTER_RETRIES` whatever `corr_last` holds, and the two
modes differ in nothing but exhaustion. A step from states that differ only in the mode stops in both or
in neither, and gives states that differ only in the mode, or, where it finishes exhausted, in the mode
and the result. `STRICT` of an operation changes nothing but the mode of the correlation it starts. -/
def Obligations.StrictModeDiffersOnlyAtExhaustion : Prop :=
  (∀ s : State, s.corr.strict = true → (finishExhausted s).host.result = statusOnly 0x02#8) ∧
  (∀ (s : State) (b : Bool),
    (∀ t, step s = .next t → ∃ t', step { s with corr.strict := b } = .next t' ∧
      (¬ finishesExhausted s t →
        t' = { t with corr.strict := t'.corr.strict } ∧
        (s.ctl ≠ .idle → s.ctl ≠ .trWake → s.env.agenda.head? ≠ some .rst → t'.corr.strict = b)) ∧
      (finishesExhausted s t →
        t'.corr.strict = b ∧
        t' = { t with
          corr.strict := b
          host.result := t'.host.result
          log.results := s.log.results ++ [t'.host.result] })) ∧
    (∀ r, step s = .refused r → step { s with corr.strict := b } = .refused r) ∧
    (∀ f, step s = .fault f → step { s with corr.strict := b } = .fault f)) ∧
  ∀ (c : Byte) (p : List Byte) (tm : BitVec 32) (n : Option Byte) (m : Byte) (st st' : Bool)
    (s t : State),
    (exec (.requestReply c tm n m st) s = .next t →
      exec (.requestReply c tm n m st') s = .next { t with corr.strict := st' }) ∧
    exec (.transaction c p tm n m st) s = exec (.transaction c p tm n m st') s ∧
    ∀ op : HostOp, coreNext s → s.ctl = .trWake →
      decodeOp s.host.curOp = .ok (.transaction c p tm n m st) →
      decodeOp op = .ok (.transaction c p tm n m st') → step s = .next t →
        ∃ b', step { s with host.curOp := op } = .next { t with host.curOp := op, corr.strict := b' } ∧
          (s.twUntil ≤ s.env.now → b' = st')

/-- TRANSACTION opens its awake window (R270, R271, R274): after the payload check the wakeup pin goes
low, nothing is sent yet, and the wait `T_WAKE` begins. -/
def Obligations.TransactionOpensAwakeWindow : Prop :=
  ∀ (c : Byte) (p : List Byte) (tm : BitVec 32) (n : Option Byte) (m : Byte) (st : Bool) (s : State),
    p.length ≤ 255 → s.env.now.toNat + s.params.tWake.toNat < 2 ^ 64 →
      hasSelector (.transaction c p tm n m st) 0x08#8 ∧
      exec (.transaction c p tm n m st) s =
        .next { wakeDriven false s with twUntil := s.env.now + s.params.tWake, ctl := .trWake }

/-- TRANSACTION sends its frame and starts the correlation once `T_WAKE` has passed, and waits before
that (R270, R271; its operands are read from `cur_op`, log entry 10; a wait keeps the state, log entry 2).
With no attempt to make, it ends at once with the pin high. -/
def Obligations.TransactionTransmits : Prop :=
  ∀ (c : Byte) (p : List Byte) (tm : BitVec 32) (n : Option Byte) (m : Byte) (st : Bool) (s : State),
    coreNext s → s.ctl = .trWake → decodeOp s.host.curOp = .ok (.transaction c p tm n m st) →
    let sent := fun m' : Byte =>
      { s with
        env.tx := s.env.tx ++ frame c p
        corr := { cmd := c, expLen := n, timeout := tm, remaining := m', strict := st, last := none,
                  ctx := true } }
    (s.env.now < s.twUntil → step s = .next s) ∧
    (s.twUntil ≤ s.env.now → m ≠ 0#8 → s.env.now.toNat + tm.toNat < 2 ^ 64 →
      step s = .next (receiving (s.env.now + tm.setWidth 64) (some (c ||| 0x80#8)) .rrAttempt
        (sent (m - 1#8)))) ∧
    (s.twUntil ≤ s.env.now → m = 0#8 →
      step s = .next { wakeDriven true (ended (statusOnly 0x02#8) (sent m)) with ctl := .idle })

/-- Scoped release (R272): whenever a TRANSACTION ends, on whatever path, the wakeup pin is high in the
state that the ending step gives, and that step wrote the result (or was a block reset, R420). -/
def Obligations.TransactionScopedRelease : Prop :=
  ∀ s t : State, s.ctl = .trWake ∨ (s.ctl = .rrAttempt ∧ s.corr.ctx = true) → step s = .next t →
    t.ctl = .idle →
      t.pins.wakeN = true ∧ t.host.busy = false ∧
      (s.env.agenda.head? ≠ some .rst →
        t.host.resultValid = true ∧ t.log.results = s.log.results ++ [t.host.result])

/-- POLL_INDICATION (R280): the oldest queued indication with no pin change and no RX byte read, or, with
the queue empty, the module awake and a receive that expects no code. -/
def Obligations.PollIndicationDrainsOrReceives : Prop :=
  ∀ (tm : BitVec 32) (s : State),
    hasSelector (.pollIndication tm) 0x07#8 ∧
    (∀ f, s.queue.count ≠ 0#6 → s.queue.entry[s.queue.head.toNat]? = some f →
      exec (.pollIndication tm) s = .next (ended (withFrame f true false)
        { s with queue.head := s.queue.head + 1#5, queue.count := s.queue.count - 1#6 })) ∧
    (s.queue.count = 0#6 → s.env.now.toNat + tm.toNat < 2 ^ 64 →
      exec (.pollIndication tm) s =
        .next (receiving (s.env.now + tm.setWidth 64) none .pollReceive (wakeDriven false s)))

/-- Polling leaves the module awake (R281): no step of POLL_INDICATION's receive, its end included, moves
a pin; only a block reset does. -/
def Obligations.PollLeavesPinsAlone : Prop :=
  ∀ s t : State, s.ctl = .pollReceive → s.env.agenda.head? ≠ some .rst → step s = .next t →
    t.pins = s.pins ∧ t.log.pins = s.log.pins ∧ (t.ctl = .pollReceive ∨ t.ctl = .idle)

/-! ## Pins -/

/-- WAKEUP and SLEEP (R286, R287). -/
def Obligations.WakeupAndSleepDriveThePin : Prop :=
  hasSelector .wakeup 0x09#8 ∧ hasSelector .sleep 0x0A#8 ∧
  ∀ s : State,
    exec .wakeup s = .next (ended (statusOnly 0x00#8) (wakeDriven false s)) ∧
    exec .sleep s = .next (ended (statusOnly 0x00#8) (wakeDriven true s))

/-- MODULE_RESET (R290): the pin low for `T_RESET_LOW`, then high for `T_SETTLE`, then the result; in
between the Core waits (the state stays: log entry 2). -/
def Obligations.ModuleResetPulse : Prop :=
  hasSelector .moduleReset 0x0B#8 ∧
  (∀ s : State, s.env.now.toNat + s.params.tResetLow.toNat < 2 ^ 64 →
    exec .moduleReset s = .next { resetDriven false s with
      mrUntil := s.env.now + s.params.tResetLow, ctl := .mrLow }) ∧
  (∀ s : State, coreNext s → s.ctl = .mrLow ∨ s.ctl = .mrSettle → s.env.now < s.mrUntil →
    step s = .next s) ∧
  (∀ s : State, coreNext s → s.ctl = .mrLow → s.mrUntil ≤ s.env.now →
    s.env.now.toNat + s.params.tSettle.toNat < 2 ^ 64 →
      step s = .next { resetDriven true s with
        mrUntil := s.env.now + s.params.tSettle, ctl := .mrSettle }) ∧
  (∀ s : State, coreNext s → s.ctl = .mrSettle → s.mrUntil ≤ s.env.now →
    step s = .next { ended (statusOnly 0x00#8) s with ctl := .idle })

/-- Settle hold, an inference that the spec marks as its own (the first sentence of R291), and the bounds
of R432: while a phase of MODULE_RESET has not run out, no step but a block reset ends it, moves the reset
pin, or accepts a presented operation; the phases last at least the source's 100 ms and 2 s; and a
configuration below these bounds is refused (the last sentence of R432; 93 U9; that every step tests it is
the model's choice, log entry 17). -/
def Obligations.ModuleResetHoldsOperations : Prop :=
  (∀ s t : State, s.ctl = .mrLow ∨ s.ctl = .mrSettle → s.env.now < s.mrUntil →
    s.env.agenda.head? ≠ some .rst → step s = .next t →
      t.ctl = s.ctl ∧ t.mrUntil = s.mrUntil ∧ t.pins = s.pins ∧ t.host = s.host ∧
      ∃ added, t.env.hostQueue = s.env.hostQueue ++ added) ∧
  (∀ s t : State, s.ctl = .idle → step s = .next t → t.ctl = .mrLow →
    s.env.now.toNat + 100000 ≤ t.mrUntil.toNat ∧ t.pins.resetN = false) ∧
  (∀ s t : State, s.ctl = .mrLow → step s = .next t → t.ctl = .mrSettle →
    s.mrUntil ≤ s.env.now ∧ s.env.now.toNat + 2000000 ≤ t.mrUntil.toNat ∧ t.pins.resetN = true) ∧
  (∀ s : State, s.params.tResetLow.toNat < 100000 ∨ s.params.tSettle.toNat < 2000000 →
    step s = .refused .configuration)

/-- Every step keeps the pins as the controller phase says (R62, R271, R280, R290). -/
def Obligations.PinsSoundKept : Prop :=
  ∀ s t : State, s.PinsSound → step s = .next t → t.PinsSound

/-! ## The whole machine -/

/-- Every step keeps the controller phase in step with the RSM and the host port (R55, R195), with the code
the phase's operation expects (R261, R280), and with the TRANSACTION whose payload passed its check (R270,
R274). -/
def Obligations.ControlSoundKept : Prop :=
  ∀ s t : State, s.ControlSound → step s = .next t → t.ControlSound

/-- No step from a state with a sound controller ends in a fault: the states the model faults on are not
reached (R195; R71, an inference that the spec marks as its own; 93 U1 to U3). The faults are the model's
own (log entry 18). -/
def Obligations.CoreNeverFaults : Prop :=
  ∀ (s : State) (f : Fault), s.ControlSound → step s ≠ .fault f

/-- Every step keeps the RX stream's arrival times in order, none later than that of the last byte appended,
and that one not later than `now`; neither it nor `now` ever decreases, and `now` moves in Time's turn
alone (R66, R67). That R67's order is held against the last byte appended, also when it has been popped, is
the model's reading (log entry 12). -/
def Obligations.StreamsStayOrdered : Prop :=
  ∀ s t : State, s.env.Sound → step s = .next t →
    t.env.Sound ∧ s.env.now ≤ t.env.now ∧ s.env.lastArrival ≤ t.env.lastArrival ∧
    (t.env.now = s.env.now ∨ ∃ n, s.env.agenda.head? = some (.time n) ∧ t.env.now.toNat = n)

/-- The RX stream is never flushed (R85, R86): a step leaves it, appends one byte at its end, or pops the
head. It appends only a byte that arrived no earlier than the last one appended and no later than `now`
(R67; that this also holds when the last one has been popped is the model's reading, log entry 12), and pops
only a byte that counts for the running receive (R183). A block reset leaves the stream (R420). The turns of
the Transport and of Time do just this: a received byte is appended (R67), the oldest TX byte is taken (R68),
and `now` advances (R66), held to the bound of R192 while no counted byte is at the head of a running receive
(log entry 12); nothing else changes. A turn that R66 or R67 excludes is refused (log entry 12). -/
def Obligations.RxNeverFlushed : Prop :=
  (∀ s t : State, step s = .next t →
    (t.env.rx = s.env.rx ∧ t.env.lastArrival = s.env.lastArrival) ∨
    (∃ x, t.env.rx = s.env.rx ++ [x] ∧ s.env.agenda.head? = some (.rx x.1 x.2) ∧
      s.env.lastArrival ≤ x.2 ∧ x.2 ≤ s.env.now ∧ t.env.lastArrival = x.2) ∨
    (∃ x, s.env.rx = x :: t.env.rx ∧ t.env.lastArrival = s.env.lastArrival ∧
      coreTurn s ∧ x.2 < s.rsm.deadline ∧ s.ctl.receiving = true ∧ s.rsm.phase ≠ .idle)) ∧
  (∀ (s : State) (b : Byte) (a : Time) (more : List Turn), s.params.ok = true →
    s.env.agenda = .rx b a :: more →
      (s.env.lastArrival ≤ a → a ≤ s.env.now →
        step s = .next { s with
          env.agenda := more, env.rx := s.env.rx ++ [(b, a)], env.lastArrival := a }) ∧
      (a < s.env.lastArrival ∨ s.env.now < a → step s = .refused .arrivalOutOfOrder)) ∧
  (∀ (s : State) (more : List Turn), s.params.ok = true → s.env.agenda = .txTake :: more →
    (s.env.tx = [] → step s = .next { s with env.agenda := more }) ∧
    (∀ b rest, s.env.tx = b :: rest →
      step s = .next { s with
        env.agenda := more, env.tx := rest, env.txTaken := s.env.txTaken ++ [b] })) ∧
  (∀ (s : State) (n : Nat) (more : List Turn), s.params.ok = true → s.env.agenda = .time n :: more →
    n < 2 ^ 64 →
      (s.env.now.toNat ≤ n →
        s.rsm.phase = .idle ∨ (∃ x, s.env.rx.head? = some x ∧ x.2 < s.rsm.deadline) ∨
          n ≤ s.rsm.deadline.toNat + s.params.tOverrun.toNat →
        step s = .next { s with env.agenda := more, env.now := BitVec.ofNat 64 n }) ∧
      (n < s.env.now.toNat → step s = .refused .timeBackwards))

/-- What was written to the TX stream, the bytes taken off it and then those still on it, only grows, and it
grows by whole frames that SEND or TRANSACTION writes, in the Core's step that runs SEND or ends the wait of
TRANSACTION, in progress (R68, R87, R90, R91). The bytes taken off the stream only grow, in the Transport's
turn alone. -/
def Obligations.TxGrowsByWholeFrames : Prop :=
  ∀ s t : State, step s = .next t →
    s.env.txTaken <+: t.env.txTaken ∧
    (t.env.txTaken = s.env.txTaken ∨ s.env.agenda.head? = some .txTake) ∧
    (t.env.txTaken ++ t.env.tx = s.env.txTaken ++ s.env.tx ∨
      ∃ c p, t.env.tx = s.env.tx ++ frame c p ∧ t.env.txTaken = s.env.txTaken ∧
        ((starting s ∧ decodeOp s.host.curOp = .ok (.send c p)) ∨
          (coreTurn s ∧ s.ctl = .trWake ∧ s.twUntil ≤ s.env.now ∧
            ∃ tm n m st, decodeOp s.host.curOp = .ok (.transaction c p tm n m st))))

/-- The result register is written exactly once, at the end of each operation (R31): a step that ends an
operation writes it, sets `result_valid` and clears `op_busy`, and no other step but a block reset touches
it. -/
def Obligations.ResultWrittenOnceAtTheEnd : Prop :=
  ∀ s t : State, s.ControlSound → s.env.agenda.head? ≠ some .rst → step s = .next t →
    (s.host.busy = true ∧ t.host.busy = false ∧ t.host.resultValid = true ∧
      t.log.results = s.log.results ++ [t.host.result]) ∨
    (t.host.result = s.host.result ∧ t.host.resultValid = s.host.resultValid ∧
      t.log.results = s.log.results ∧ (s.host.busy = true → t.host.busy = true))

/-- Every step keeps the result register within R32 and R370: a status that the block writes, never
`INVALID_ARGUMENT` (R273), and flags that agree with the frame (R34). It keeps the last frame observed a
whole frame (R40, R56), and the queue within its capacity (R53) with whole frames in it; that every queued
frame is an indication is an inference that the spec marks as its own (the sentence of R233, "derived"). -/
def Obligations.FramesSoundKept : Prop :=
  ∀ s t : State, s.FramesSound → step s = .next t → t.FramesSound

/-- The block reset (R420), at any time: the registers of R70 take their reset values and the environment
stays. Nothing is said of the registers that R70 leaves unspecified. -/
def Obligations.BlockResetStep : Prop :=
  ∀ (s : State) (more : List Turn), s.params.ok = true → s.env.agenda = .rst :: more →
    ∃ t, step s = .next t ∧
      t.host.busy = false ∧ t.host.resultValid = false ∧ t.host.result.status = 0x00#8 ∧
      t.host.result.frameValid = false ∧ t.host.result.isIndication = false ∧
      t.host.result.matched = false ∧ t.host.result.checkOk = false ∧ t.host.result.out = [] ∧
      t.rsm.phase = .idle ∧ t.queue.head = 0#5 ∧ t.queue.count = 0#6 ∧ t.ctl = .idle ∧
      t.pins.wakeN = true ∧ t.pins.resetN = true ∧
      t.env = { s.env with agenda := more } ∧ t.params = s.params ∧
      t.log.events = s.log.events ∧ t.log.results = s.log.results

/-- Every step keeps the operations at the host port records of R120: the one accepted, while `op_busy = 1`,
and those presented (R121). -/
def Obligations.PortSoundKept : Prop :=
  ∀ s t : State, s.PortSound → step s = .next t → t.PortSound

/-- The reset state is sound, and its registers hold what R70 gives: all invariants start there. The
values of the registers that R70 leaves unspecified, and the empty environment, are the model's choice
(log entries 1 and 4). -/
def Obligations.ResetStateIsSound : Prop :=
  State.reset.Sound ∧ State.reset.runOver = true ∧
  State.reset.host.busy = false ∧ State.reset.host.resultValid = false ∧
  State.reset.host.result.status = 0x00#8 ∧ State.reset.host.result.frameValid = false ∧
  State.reset.host.result.isIndication = false ∧ State.reset.host.result.matched = false ∧
  State.reset.host.result.checkOk = false ∧ State.reset.host.result.out = [] ∧
  State.reset.queue.count = 0#6 ∧
  State.reset.queue.head = 0#5 ∧ State.reset.rsm.phase = .idle ∧ State.reset.ctl = .idle ∧
  State.reset.pins.wakeN = true ∧ State.reset.pins.resetN = true

/-- The Façade's argument checks (R330, R311, R312, R319, R320): a call whose arguments are out of bounds
returns `INVALID_ARGUMENT` (0x03) and issues no operation; that a key not of 16 bytes is refused is an
inference that the spec marks as its own (R318: "derived from the payload size"), and the arguments of 0x57
must also pass `CH_PARAMS_OK`, which the source leaves open. Every other call issues one TRANSACTION, with
its command's code, its expected length and the default 8 retries (R310 to R320, R125, R126); a payload
that the source does not give is the caller's (log entry 14). A matched reply is decoded: the firmware
version and the serial number are little-endian and the EUI byte-reversed, as the application key is in its
request (R82, R83, R313, R314, R315, R318); the status byte 0x00 is success (R331;
that 0x30 has one is PRESUMED, log entry 14), and 0x42 gives the byte at offset 0 (R317). -/
def Obligations.FacadeBoundary : Prop :=
  (∀ (pr : Params) (tm : BitVec 32),
    (∀ a n p, 255 < a ∨ 256 < a + n →
      facadeIssue pr tm (.eepromWrite a n p) = .error 0x03#8 ∧
      facadeIssue pr tm (.eepromRead a n p) = .error 0x03#8) ∧
    (∀ k, k.length ≠ 16 → facadeIssue pr tm (.setAppKey k) = .error 0x03#8) ∧
    (∀ port c d, port < 1 ∨ 223 < port ∨ 209 < d.length →
      facadeIssue pr tm (.txMsg port c d) = .error 0x03#8) ∧
    (∀ ch f lo hi p, ch < 3 ∨ 15 < ch →
      facadeIssue pr tm (.setChParameters ch f lo hi p) = .error 0x03#8)) ∧
  (∀ (pr : Params) (tm : BitVec 32) (p : List Byte),
    issues pr tm (.moduleReset p) 0x30#8 p pr.expectedLens.moduleReset ∧
    (∀ a n, a ≤ 255 → a + n ≤ 256 →
      issues pr tm (.eepromWrite a n p) 0x32#8 p pr.expectedLens.eepromWrite ∧
      issues pr tm (.eepromRead a n p) 0x33#8 p pr.expectedLens.eepromRead) ∧
    issues pr tm .getFwVersion 0x34#8 [] (some 4#8) ∧
    issues pr tm .getSerialNo 0x35#8 [] (some 4#8) ∧
    issues pr tm .getDevEui 0x36#8 [] (some 8#8) ∧
    issues pr tm (.join p) 0x40#8 p pr.expectedLens.join ∧
    issues pr tm (.getActivationStatus p) 0x42#8 p pr.expectedLens.activationStatus ∧
    (∀ k, k.length = 16 → issues pr tm (.setAppKey k) 0x43#8 k.reverse pr.expectedLens.appKey) ∧
    (∀ port c d, 1 ≤ port → port ≤ 223 → d.length ≤ 209 →
      (∃ lead, lead.length = 2 ∧ issues pr tm (.txMsg port c d) 0x46#8 (lead ++ d) (some 1#8)) ∧
      (port = 1 → c = true →
        issues pr tm (.txMsg port c d) 0x46#8 ([0x01#8, 0x01#8] ++ d) (some 1#8))) ∧
    (∀ ch f lo hi, 3 ≤ ch → ch ≤ 15 →
      if Config.chParamsOk f lo hi then
        issues pr tm (.setChParameters ch f lo hi p) 0x57#8 p pr.expectedLens.chParameters
      else facadeIssue pr tm (.setChParameters ch f lo hi p) = .error 0x03#8)) ∧
  ∀ (pr : Params) (b0 b1 b2 b3 : Byte) (e : List Byte) (r : Result), r.matched = true →
    (r.frame = some { code := 0xB4#8, length := 4#8, payload := [b0, b1, b2, b3] } →
      facadeReply pr .getFwVersion r =
        some (.number (b0.toNat + 256 * b1.toNat + 65536 * b2.toNat + 16777216 * b3.toNat))) ∧
    (r.frame = some { code := 0xB5#8, length := 4#8, payload := [b0, b1, b2, b3] } →
      facadeReply pr .getSerialNo r =
        some (.number (b0.toNat + 256 * b1.toNat + 65536 * b2.toNat + 16777216 * b3.toNat))) ∧
    (e.length = 8 → r.frame = some { code := 0xB6#8, length := 8#8, payload := e } →
      facadeReply pr .getDevEui r = some (.eui e.reverse)) ∧
    (∀ (c : FacadeCall) (n : Byte),
      r.frame = some { code := c.cmd ||| 0x80#8, length := n, payload := b0 :: e } →
      (c.cmd ∈ [0x30#8, 0x32#8, 0x40#8, 0x43#8, 0x46#8, 0x57#8] →
        facadeReply pr c r = some (.status (decide (b0 = 0x00#8)))) ∧
      (c.cmd = 0x42#8 → facadeReply pr c r = some (.byte b0)))
end

