-- ==== Sys2Proof/Laws/Header.lean ====
section
/-! SUPPORT. The header's fields and its bits agree, and little-endian bytes and numbers agree: what a proof
about the encodings cites instead of unfolding them. -/

namespace Sys2Proof

theorem Header.ofBits_toBits (h : Header) : Header.ofBits h.toBits = h := by
  obtain ⟨op, code, cv, lv, strict, rl, el, mr, pl, rh, tm⟩ := h
  simp only [Header.ofBits, Header.toBits, Header.mk.injEq]
  refine ⟨?_, ?_, ?_, ?_, ?_, ?_, ?_, ?_, ?_, ?_, ?_⟩
  all_goals
    first
    | (apply BitVec.eq_of_getLsbD_eq
       intro i hi
       simp only [BitVec.getLsbD_extractLsb', BitVec.getLsbD_append]
       interval_cases i <;> simp)
    | (simp only [BitVec.getLsbD_append]; simp)

theorem Header.toBits_ofBits (h : BitVec 96) : (Header.ofBits h).toBits = h := by
  apply BitVec.eq_of_getLsbD_eq
  intro i hi
  simp only [Header.ofBits, Header.toBits, BitVec.getLsbD_append, BitVec.getLsbD_extractLsb']
  interval_cases i <;> simp

@[simp] theorem length_leBytes (n w : Nat) : (leBytes n w).length = n := by
  induction n generalizing w with
  | zero => rfl
  | succ n ih => simp [leBytes, ih]

theorem leNat_leBytes (n w : Nat) : leNat (leBytes n w) = w % 256 ^ n := by
  induction n generalizing w with
  | zero => simp [leBytes, leNat, Nat.mod_one]
  | succ n ih =>
    rw [leBytes, leNat, ih, BitVec.toNat_ofNat, show (256 : Nat) ^ (n + 1) = 256 * 256 ^ n by ring,
      Nat.mod_mul]

theorem HostOp.plen_eq (o : HostOp) : o.plen = (Header.ofBits o.header).plen.toNat := rfl

end Sys2Proof
end

