-- ==== Sys2Proof/Laws/State.lean ====
section
/-! SUPPORT. One lemma per field per named update of the state, each true by unfolding, so that no proof
unfolds a record update. -/

namespace Sys2Proof
namespace Machine

@[simp] theorem rxPop_host (s : State) : (rxPop s).host = s.host := rfl
@[simp] theorem rxPop_rsm (s : State) : (rxPop s).rsm = s.rsm := rfl
@[simp] theorem rxPop_queue (s : State) : (rxPop s).queue = s.queue := rfl
@[simp] theorem rxPop_ctl (s : State) : (rxPop s).ctl = s.ctl := rfl
@[simp] theorem rxPop_corr (s : State) : (rxPop s).corr = s.corr := rfl
@[simp] theorem rxPop_mrUntil (s : State) : (rxPop s).mrUntil = s.mrUntil := rfl
@[simp] theorem rxPop_twUntil (s : State) : (rxPop s).twUntil = s.twUntil := rfl
@[simp] theorem rxPop_pins (s : State) : (rxPop s).pins = s.pins := rfl
@[simp] theorem rxPop_env (s : State) : (rxPop s).env = { s.env with rx := s.env.rx.tail } := rfl
@[simp] theorem rxPop_params (s : State) : (rxPop s).params = s.params := rfl
@[simp] theorem rxPop_log (s : State) : (rxPop s).log = s.log := rfl

@[simp] theorem txWrite_host (bs : List Byte) (s : State) : (txWrite bs s).host = s.host := rfl
@[simp] theorem txWrite_rsm (bs : List Byte) (s : State) : (txWrite bs s).rsm = s.rsm := rfl
@[simp] theorem txWrite_queue (bs : List Byte) (s : State) : (txWrite bs s).queue = s.queue := rfl
@[simp] theorem txWrite_ctl (bs : List Byte) (s : State) : (txWrite bs s).ctl = s.ctl := rfl
@[simp] theorem txWrite_corr (bs : List Byte) (s : State) : (txWrite bs s).corr = s.corr := rfl
@[simp] theorem txWrite_mrUntil (bs : List Byte) (s : State) : (txWrite bs s).mrUntil = s.mrUntil := rfl
@[simp] theorem txWrite_twUntil (bs : List Byte) (s : State) : (txWrite bs s).twUntil = s.twUntil := rfl
@[simp] theorem txWrite_pins (bs : List Byte) (s : State) : (txWrite bs s).pins = s.pins := rfl
@[simp] theorem txWrite_env (bs : List Byte) (s : State) :
    (txWrite bs s).env =
      { s.env with tx := s.env.tx ++ bs } := rfl
@[simp] theorem txWrite_params (bs : List Byte) (s : State) : (txWrite bs s).params = s.params := rfl
@[simp] theorem txWrite_log (bs : List Byte) (s : State) : (txWrite bs s).log = s.log := rfl

@[simp] theorem record_host (es : List Event) (s : State) : (record es s).host = s.host := rfl
@[simp] theorem record_rsm (es : List Event) (s : State) : (record es s).rsm = s.rsm := rfl
@[simp] theorem record_queue (es : List Event) (s : State) : (record es s).queue = s.queue := rfl
@[simp] theorem record_ctl (es : List Event) (s : State) : (record es s).ctl = s.ctl := rfl
@[simp] theorem record_corr (es : List Event) (s : State) : (record es s).corr = s.corr := rfl
@[simp] theorem record_mrUntil (es : List Event) (s : State) : (record es s).mrUntil = s.mrUntil := rfl
@[simp] theorem record_twUntil (es : List Event) (s : State) : (record es s).twUntil = s.twUntil := rfl
@[simp] theorem record_pins (es : List Event) (s : State) : (record es s).pins = s.pins := rfl
@[simp] theorem record_env (es : List Event) (s : State) : (record es s).env = s.env := rfl
@[simp] theorem record_params (es : List Event) (s : State) : (record es s).params = s.params := rfl
@[simp] theorem record_log (es : List Event) (s : State) :
    (record es s).log =
      { s.log with events := s.log.events ++ es } := rfl

@[simp] theorem pinWriteWake_host (v : Bool) (s : State) : (pinWriteWake v s).host = s.host := rfl
@[simp] theorem pinWriteWake_rsm (v : Bool) (s : State) : (pinWriteWake v s).rsm = s.rsm := rfl
@[simp] theorem pinWriteWake_queue (v : Bool) (s : State) : (pinWriteWake v s).queue = s.queue := rfl
@[simp] theorem pinWriteWake_ctl (v : Bool) (s : State) : (pinWriteWake v s).ctl = s.ctl := rfl
@[simp] theorem pinWriteWake_corr (v : Bool) (s : State) : (pinWriteWake v s).corr = s.corr := rfl
@[simp] theorem pinWriteWake_mrUntil (v : Bool) (s : State) :
    (pinWriteWake v s).mrUntil =
      s.mrUntil := rfl
@[simp] theorem pinWriteWake_twUntil (v : Bool) (s : State) :
    (pinWriteWake v s).twUntil =
      s.twUntil := rfl
@[simp] theorem pinWriteWake_pins (v : Bool) (s : State) :
    (pinWriteWake v s).pins =
      { s.pins with wakeN := v } := rfl
@[simp] theorem pinWriteWake_env (v : Bool) (s : State) : (pinWriteWake v s).env = s.env := rfl
@[simp] theorem pinWriteWake_params (v : Bool) (s : State) : (pinWriteWake v s).params = s.params := rfl
@[simp] theorem pinWriteWake_log (v : Bool) (s : State) :
    (pinWriteWake v s).log =
      { s.log with pins := s.log.pins ++ pinChange .wake v s } := rfl

@[simp] theorem pinWriteReset_host (v : Bool) (s : State) : (pinWriteReset v s).host = s.host := rfl
@[simp] theorem pinWriteReset_rsm (v : Bool) (s : State) : (pinWriteReset v s).rsm = s.rsm := rfl
@[simp] theorem pinWriteReset_queue (v : Bool) (s : State) : (pinWriteReset v s).queue = s.queue := rfl
@[simp] theorem pinWriteReset_ctl (v : Bool) (s : State) : (pinWriteReset v s).ctl = s.ctl := rfl
@[simp] theorem pinWriteReset_corr (v : Bool) (s : State) : (pinWriteReset v s).corr = s.corr := rfl
@[simp] theorem pinWriteReset_mrUntil (v : Bool) (s : State) :
    (pinWriteReset v s).mrUntil =
      s.mrUntil := rfl
@[simp] theorem pinWriteReset_twUntil (v : Bool) (s : State) :
    (pinWriteReset v s).twUntil =
      s.twUntil := rfl
@[simp] theorem pinWriteReset_pins (v : Bool) (s : State) :
    (pinWriteReset v s).pins =
      { s.pins with resetN := v } := rfl
@[simp] theorem pinWriteReset_env (v : Bool) (s : State) : (pinWriteReset v s).env = s.env := rfl
@[simp] theorem pinWriteReset_params (v : Bool) (s : State) :
    (pinWriteReset v s).params =
      s.params := rfl
@[simp] theorem pinWriteReset_log (v : Bool) (s : State) :
    (pinWriteReset v s).log =
      { s.log with pins := s.log.pins ++ pinChange .reset v s } := rfl

@[simp] theorem writeResult_host (r : Result) (s : State) :
    (writeResult r s).host =
      { s.host with result := r, resultValid := true, busy := false } := rfl
@[simp] theorem writeResult_rsm (r : Result) (s : State) : (writeResult r s).rsm = s.rsm := rfl
@[simp] theorem writeResult_queue (r : Result) (s : State) : (writeResult r s).queue = s.queue := rfl
@[simp] theorem writeResult_ctl (r : Result) (s : State) : (writeResult r s).ctl = s.ctl := rfl
@[simp] theorem writeResult_corr (r : Result) (s : State) : (writeResult r s).corr = s.corr := rfl
@[simp] theorem writeResult_mrUntil (r : Result) (s : State) :
    (writeResult r s).mrUntil =
      s.mrUntil := rfl
@[simp] theorem writeResult_twUntil (r : Result) (s : State) :
    (writeResult r s).twUntil =
      s.twUntil := rfl
@[simp] theorem writeResult_pins (r : Result) (s : State) : (writeResult r s).pins = s.pins := rfl
@[simp] theorem writeResult_env (r : Result) (s : State) : (writeResult r s).env = s.env := rfl
@[simp] theorem writeResult_params (r : Result) (s : State) : (writeResult r s).params = s.params := rfl
@[simp] theorem writeResult_log (r : Result) (s : State) :
    (writeResult r s).log =
      { s.log with results := s.log.results ++ [r] } := rfl

@[simp] theorem rsmStart_host (d : Time) (e : Option Byte) (s : State) :
    (rsmStart d e s).host =
      s.host := rfl
@[simp] theorem rsmStart_rsm (d : Time) (e : Option Byte) (s : State) :
    (rsmStart d e s).rsm =
      { s.rsm with deadline := d, expected := e, phase := .huntSync } := rfl
@[simp] theorem rsmStart_queue (d : Time) (e : Option Byte) (s : State) :
    (rsmStart d e s).queue =
      s.queue := rfl
@[simp] theorem rsmStart_ctl (d : Time) (e : Option Byte) (s : State) :
    (rsmStart d e s).ctl =
      s.ctl := rfl
@[simp] theorem rsmStart_corr (d : Time) (e : Option Byte) (s : State) :
    (rsmStart d e s).corr =
      s.corr := rfl
@[simp] theorem rsmStart_mrUntil (d : Time) (e : Option Byte) (s : State) :
    (rsmStart d e s).mrUntil =
      s.mrUntil := rfl
@[simp] theorem rsmStart_twUntil (d : Time) (e : Option Byte) (s : State) :
    (rsmStart d e s).twUntil =
      s.twUntil := rfl
@[simp] theorem rsmStart_pins (d : Time) (e : Option Byte) (s : State) :
    (rsmStart d e s).pins =
      s.pins := rfl
@[simp] theorem rsmStart_env (d : Time) (e : Option Byte) (s : State) :
    (rsmStart d e s).env =
      s.env := rfl
@[simp] theorem rsmStart_params (d : Time) (e : Option Byte) (s : State) :
    (rsmStart d e s).params =
      s.params := rfl
@[simp] theorem rsmStart_log (d : Time) (e : Option Byte) (s : State) :
    (rsmStart d e s).log =
      s.log := rfl

@[simp] theorem enqueue_host (f : DecodedFrame) (s : State) : (enqueue f s).host = s.host := rfl
@[simp] theorem enqueue_rsm (f : DecodedFrame) (s : State) : (enqueue f s).rsm = s.rsm := rfl
@[simp] theorem enqueue_queue (f : DecodedFrame) (s : State) :
    (enqueue f s).queue =
      s.queue.push f := rfl
@[simp] theorem enqueue_ctl (f : DecodedFrame) (s : State) : (enqueue f s).ctl = s.ctl := rfl
@[simp] theorem enqueue_corr (f : DecodedFrame) (s : State) : (enqueue f s).corr = s.corr := rfl
@[simp] theorem enqueue_mrUntil (f : DecodedFrame) (s : State) :
    (enqueue f s).mrUntil =
      s.mrUntil := rfl
@[simp] theorem enqueue_twUntil (f : DecodedFrame) (s : State) :
    (enqueue f s).twUntil =
      s.twUntil := rfl
@[simp] theorem enqueue_pins (f : DecodedFrame) (s : State) : (enqueue f s).pins = s.pins := rfl
@[simp] theorem enqueue_env (f : DecodedFrame) (s : State) : (enqueue f s).env = s.env := rfl
@[simp] theorem enqueue_params (f : DecodedFrame) (s : State) : (enqueue f s).params = s.params := rfl
@[simp] theorem enqueue_log (f : DecodedFrame) (s : State) :
    (enqueue f s).log =
      { s.log with events := s.log.events ++ (if s.queue.isFull then [.queueDrop f] else []) } := rfl

@[simp] theorem blockReset_host (s : State) : (blockReset s).host = HostPort.reset := rfl
@[simp] theorem blockReset_rsm (s : State) : (blockReset s).rsm = Rsm.reset := rfl
@[simp] theorem blockReset_queue (s : State) : (blockReset s).queue = Queue.reset := rfl
@[simp] theorem blockReset_ctl (s : State) : (blockReset s).ctl = .idle := rfl
@[simp] theorem blockReset_corr (s : State) : (blockReset s).corr = Corr.reset := rfl
@[simp] theorem blockReset_mrUntil (s : State) : (blockReset s).mrUntil = 0#64 := rfl
@[simp] theorem blockReset_twUntil (s : State) : (blockReset s).twUntil = 0#64 := rfl
@[simp] theorem blockReset_pins (s : State) : (blockReset s).pins = Pins.reset := rfl
@[simp] theorem blockReset_env (s : State) : (blockReset s).env = s.env := rfl
@[simp] theorem blockReset_params (s : State) : (blockReset s).params = s.params := rfl
@[simp] theorem blockReset_log (s : State) :
    (blockReset s).log =
      { s.log with pins := s.log.pins ++ pinChange .wake true s ++ pinChange .reset true s } := rfl

end Machine
end Sys2Proof
end

