-- ==== Sys2Proof/Laws/Ops.lean ====
section
/-! SUPPORT. For each shared operation, one lemma that says once what it can do: a proof cites it instead of
unfolding the operation. -/

namespace Sys2Proof
namespace Machine

/-! ## Times -/

theorem addTime_eq_some {t d u : Time} :
    addTime t d = some u ↔ t.toNat + d.toNat < 2 ^ 64 ∧ u = t + d := by
  unfold addTime
  split <;> simp_all [eq_comm]

theorem addTime_eq_none {t d : Time} : addTime t d = none ↔ 2 ^ 64 ≤ t.toNat + d.toNat := by
  unfold addTime
  split <;> simp_all

/-- A computed time is not earlier than the time it was computed at. -/
theorem le_of_addTime {t d u : Time} (h : addTime t d = some u) : t ≤ u := by
  obtain ⟨hlt, rfl⟩ := addTime_eq_some.1 h
  rw [BitVec.le_def, BitVec.toNat_add, Nat.mod_eq_of_lt hlt]
  omega

/-! ## Buffers -/

theorem length_memRead (buf : Vector Byte 255) (i n : Nat) (h : i + n ≤ 255) :
    (memRead buf i n).length = n := by
  simp [memRead]
  omega

/-- One more byte of a buffer is read after the bytes before it. -/
theorem memRead_succ (buf : Vector Byte 255) (n : Nat) (h : n < 255) :
    memRead buf 0 (n + 1) = memRead buf 0 n ++ [buf[n]] := by
  simp only [memRead, List.drop_zero]
  rw [List.take_succ_eq_append_getElem (by simpa using h)]
  simp

/-- Writing a byte leaves the bytes before it. -/
theorem memRead_memWrite_before (buf : Vector Byte 255) (n k : Nat) (b : Byte) (h : n ≤ k) :
    memRead (memWrite buf k b) 0 n = memRead buf 0 n := by
  simp only [memRead, memWrite, List.drop_zero, Vector.toList_setIfInBounds]
  exact List.take_set_of_le h

/-- Writing the next byte and reading up to it. -/
theorem memRead_memWrite_succ (buf : Vector Byte 255) (n : Nat) (b : Byte) (h : n < 255) :
    memRead (memWrite buf n b) 0 (n + 1) = memRead buf 0 n ++ [b] := by
  rw [memRead_succ _ _ h, memRead_memWrite_before _ _ _ _ (Nat.le_refl n)]
  simp [memWrite]

/-- The frame the RSM hands over is whole (R40). -/
theorem assembled_wf (r : Rsm) : (assembled r).wf = true := by
  have h : 0 + r.len.toNat ≤ 255 := by have := r.len.isLt; omega
  simp [DecodedFrame.wf, assembled, length_memRead _ _ _ h]

/-! ## Receives -/

theorem startReceive_next {timeout : Time} {e : Option Byte} {ph : CtlPhase} {s t : State}
    (h : startReceive timeout e ph s = .next t) :
    ∃ d, addTime s.env.now timeout = some d ∧ t = { rsmStart d e s with ctl := ph } := by
  unfold startReceive at h
  split at h
  · cases h
  · exact ⟨_, ‹_›, by cases h; rfl⟩

theorem startReceive_ne_fault (timeout : Time) (e : Option Byte) (ph : CtlPhase) (s : State)
    (f : Fault) : startReceive timeout e ph s ≠ .fault f := by
  unfold startReceive
  split <;> simp

/-- The next attempt or the end of the correlation (R261). -/
theorem nextOrFinish_next {s t : State} (h : nextOrFinish s = .next t) :
    (s.corr.remaining = 0#8 ∧ t = finishExhausted s) ∨
    ∃ d, addTime s.env.now (timeoutTime s.corr.timeout) = some d ∧
      t = { rsmStart d (some (replyCode s.corr.cmd))
              { s with corr.remaining := s.corr.remaining - 1#8 } with ctl := .rrAttempt } := by
  unfold nextOrFinish at h
  split at h
  · exact .inl ⟨‹_›, by cases h; rfl⟩
  · exact .inr (startReceive_next h)

theorem nextOrFinish_ne_fault (s : State) (f : Fault) : nextOrFinish s ≠ .fault f := by
  unfold nextOrFinish
  split
  · simp
  · exact startReceive_ne_fault _ _ _ _ _

/-- How an attempt ends (R261): in each case, the state from which the correlation goes on, or the
match. -/
theorem attemptEnd_next {o : RsmOutcome} {s t : State} (h : attemptEnd o s = .next t) :
    (∃ f, o = .frame f false ∧ wrongLength s.corr f = false ∧ t = finishMatched f s) ∨
    (∃ s', nextOrFinish s' = .next t ∧
      ((o = .timedOut ∧ s' = s) ∨
       (∃ f, o = .frame f false ∧ s' = { s with corr.last := some f }) ∨
       (∃ f, o = .frame f true ∧ s' = enqueue f { s with corr.last := some f }) ∨
       (∃ f, o = .frame f true ∧ s' = enqueue f s))) := by
  cases o with
  | timedOut => exact .inr ⟨s, h, .inl ⟨rfl, rfl⟩⟩
  | frame f ind =>
    cases ind with
    | true =>
      by_cases hp : s.params.lastFrame = .anyFrame
      · exact .inr ⟨_, h, .inr (.inr (.inl ⟨f, rfl, by simp [hp]⟩))⟩
      · exact .inr ⟨_, h, .inr (.inr (.inr ⟨f, rfl, by simp [hp]⟩))⟩
    | false =>
      by_cases hw : wrongLength s.corr f = true
      · simp only [attemptEnd, hw, if_true, Bool.false_eq_true, if_false] at h
        exact .inr ⟨_, h, .inr (.inl ⟨f, rfl, rfl⟩)⟩
      · simp only [Bool.not_eq_true] at hw
        simp only [attemptEnd, hw, Bool.false_eq_true, if_false] at h
        exact .inl ⟨f, rfl, hw, by cases h; rfl⟩

theorem attemptEnd_ne_fault (o : RsmOutcome) (s : State) (f : Fault) : attemptEnd o s ≠ .fault f := by
  unfold attemptEnd
  split
  · exact nextOrFinish_ne_fault _ _
  · split
    · exact nextOrFinish_ne_fault _ _
    · split
      · exact nextOrFinish_ne_fault _ _
      · simp

/-- Outcome delivery (R195): the controller was in a receive phase. -/
theorem deliver_next {o : RsmOutcome} {s t : State} (h : deliver o s = .next t) :
    ((s.ctl = .receive ∨ s.ctl = .pollReceive) ∧ t = finishReceive o s) ∨
    (s.ctl = .rrAttempt ∧ attemptEnd o s = .next t) := by
  unfold deliver at h
  split at h
  · exact .inl ⟨.inl ‹_›, by cases h; rfl⟩
  · exact .inr ⟨‹_›, h⟩
  · exact .inl ⟨.inr ‹_›, by cases h; rfl⟩
  all_goals cases h

/-- An RSM step put into the state: silent, or with its outcome delivered (R195). -/
theorem applyRsm_next {st : RsmStep} {s t : State} (h : applyRsm st s = .next t) :
    (st.outcome = none ∧ t = record st.events { s with rsm := st.rsm }) ∨
    (∃ o, st.outcome = some o ∧ deliver o (record st.events { s with rsm := st.rsm }) = .next t) := by
  unfold applyRsm at h
  split at h
  · exact .inl ⟨‹_›, by cases h; rfl⟩
  · exact .inr ⟨_, ‹_›, h⟩

/-- A byte step never rewrites the deadline or the expected code (R43, R189). -/
@[simp] theorem rsmByte_deadline (b : Byte) (r : Rsm) :
    (rsmByte b r).rsm.deadline = r.deadline ∧ (rsmByte b r).rsm.expected = r.expected := by
  unfold rsmByte
  split
  · exact ⟨rfl, rfl⟩
  · unfold huntSyncByte; split <;> exact ⟨rfl, rfl⟩
  · unfold huntCodeByte; split_ifs <;> exact ⟨rfl, rfl⟩
  · exact ⟨rfl, rfl⟩
  · unfold readBodyByte; simp only; split_ifs <;> exact ⟨rfl, rfl⟩

/-- What the RSM hands over on a byte: nothing while it runs on, or an assembled frame with the RSM at
`R_IDLE` (R190). -/
theorem rsmByte_outcome (b : Byte) (r : Rsm) :
    ((rsmByte b r).outcome = none ∧ ((rsmByte b r).rsm.phase = .idle ↔ r.phase = .idle)) ∨
    (r.phase = .readBody ∧ (rsmByte b r).rsm.phase = .idle ∧ (bodyByte b r).sum = 0#8 ∧
      (bodyByte b r).count = r.len.setWidth 9 + 1#9 ∧
      (rsmByte b r).outcome = some (.frame (assembled (bodyByte b r)) (isIndication r.code))) := by
  unfold rsmByte
  split <;> rename_i hp
  · exact .inl ⟨rfl, by simp [hp]⟩
  · left; unfold huntSyncByte; split_ifs <;> simp [hp]
  · left; unfold huntCodeByte; split_ifs <;> simp [hp]
  · left; simp [readLenByte, hp]
  · unfold readBodyByte
    simp only
    split_ifs with h1 h2
    · exact .inr ⟨hp, rfl, h2, h1, rfl⟩
    · left; simp [hp]
    · left; simp [hp, bodyByte]

/-! ## Waits and phases -/

theorem whenReached_next {u : Time} {go : State → Host.Outcome State Fault Refusal} {s t : State}
    (h : whenReached u go s = .next t) : (u ≤ s.env.now ∧ go s = .next t) ∨ (s.env.now < u ∧ t = s) := by
  unfold whenReached at h
  split at h
  · exact .inl ⟨‹_›, h⟩
  · exact .inr ⟨by rename_i hu; rw [BitVec.lt_def]; rw [BitVec.le_def] at hu; omega, by cases h; rfl⟩

theorem moduleResetPhase_next {v : Bool} {w : Time} {ph : CtlPhase} {s t : State}
    (h : moduleResetPhase v w ph s = .next t) :
    ∃ u, addTime s.env.now w = some u ∧ t = { pinWriteReset v s with mrUntil := u, ctl := ph } := by
  unfold moduleResetPhase at h
  split at h
  · cases h
  · exact ⟨_, ‹_›, by cases h; rfl⟩

theorem transactionTransmit_next {s t : State} (h : transactionTransmit s = .next t) :
    ∃ c p tm n m st, decodeOp s.host.curOp = .ok (.transaction c p tm n m st) ∧
      nextOrFinish { txWrite (frame c p) s with corr := corrStart c tm n m st true } = .next t := by
  unfold transactionTransmit at h
  split at h
  · exact ⟨_, _, _, _, _, _, ‹_›, h⟩
  · cases h

theorem countedHead_eq_some {s : State} {b : Byte} (h : countedHead s = some b) :
    ∃ a rest, s.env.rx = (b, a) :: rest ∧ a < s.rsm.deadline := by
  unfold countedHead rxNext at h
  cases hrx : s.env.rx with
  | nil => simp [hrx] at h
  | cons x rest =>
    obtain ⟨y, a⟩ := x
    simp only [hrx, List.head?_cons, counted, decide_eq_true_eq, Option.ite_none_right_eq_some,
      Option.some.injEq] at h
    exact ⟨a, rest, by rw [← h.2], h.1⟩

end Machine
end Sys2Proof
end

