-- ==== Sys2Proof/Laws/PerInstr.lean ====
section
/-! SUPPORT. Statements about every instruction, one lemma per constructor. -/

namespace Sys2Proof
namespace Laws

/-- An instruction's encoding is the 12 header bytes and its operand bytes on the host port (R120), and
one byte on the RX stream (R116). -/
def EncodedLength.Statement (i : Instr) : Prop :=
  (Sys2Proof.encode i).length = match i.port with
    | .host => 12 + i.operandBytes.length
    | .rx => 1

theorem EncodedLength.encode (c : Byte) (p : List Byte) :
    EncodedLength.Statement (.encode c p) := by
  simp [EncodedLength.Statement, Sys2Proof.encode, encodeOp, Instr.header, Instr.port, Instr.codeByte,
    Instr.operandBytes]

theorem EncodedLength.check (d : List Byte) :
    EncodedLength.Statement (.check d) := by
  simp [EncodedLength.Statement, Sys2Proof.encode, encodeOp, Instr.header, Instr.port, Instr.codeByte,
    Instr.operandBytes]

theorem EncodedLength.send (c : Byte) (p : List Byte) :
    EncodedLength.Statement (.send c p) := by
  simp [EncodedLength.Statement, Sys2Proof.encode, encodeOp, Instr.header, Instr.port, Instr.codeByte,
    Instr.operandBytes]

theorem EncodedLength.receive (t : BitVec 32) (e : Option Byte) :
    EncodedLength.Statement (.receive t e) := by
  simp [EncodedLength.Statement, Sys2Proof.encode, encodeOp, Instr.header, Instr.port, Instr.codeByte,
    Instr.operandBytes]

theorem EncodedLength.requestReply (c : Byte) (t : BitVec 32) (n : Option Byte) (m : Byte) (st : Bool) :
    EncodedLength.Statement (.requestReply c t n m st) := by
  simp [EncodedLength.Statement, Sys2Proof.encode, encodeOp, Instr.header, Instr.port, Instr.codeByte,
    Instr.operandBytes]

theorem EncodedLength.dequeue :
    EncodedLength.Statement .dequeue := by
  simp [EncodedLength.Statement, Sys2Proof.encode, encodeOp, Instr.header, Instr.port, Instr.codeByte,
    Instr.operandBytes]

theorem EncodedLength.pollIndication (t : BitVec 32) :
    EncodedLength.Statement (.pollIndication t) := by
  simp [EncodedLength.Statement, Sys2Proof.encode, encodeOp, Instr.header, Instr.port, Instr.codeByte,
    Instr.operandBytes]

theorem EncodedLength.transaction (c : Byte) (p : List Byte) (t : BitVec 32) (n : Option Byte) (m : Byte) (st : Bool) :
    EncodedLength.Statement (.transaction c p t n m st) := by
  simp [EncodedLength.Statement, Sys2Proof.encode, encodeOp, Instr.header, Instr.port, Instr.codeByte,
    Instr.operandBytes]

theorem EncodedLength.wakeup :
    EncodedLength.Statement .wakeup := by
  simp [EncodedLength.Statement, Sys2Proof.encode, encodeOp, Instr.header, Instr.port, Instr.codeByte,
    Instr.operandBytes]

theorem EncodedLength.sleep :
    EncodedLength.Statement .sleep := by
  simp [EncodedLength.Statement, Sys2Proof.encode, encodeOp, Instr.header, Instr.port, Instr.codeByte,
    Instr.operandBytes]

theorem EncodedLength.moduleReset :
    EncodedLength.Statement .moduleReset := by
  simp [EncodedLength.Statement, Sys2Proof.encode, encodeOp, Instr.header, Instr.port, Instr.codeByte,
    Instr.operandBytes]

theorem EncodedLength.moduleResetCmdReq :
    EncodedLength.Statement .moduleResetCmdReq := rfl

theorem EncodedLength.eepromWriteReq :
    EncodedLength.Statement .eepromWriteReq := rfl

theorem EncodedLength.eepromReadReq :
    EncodedLength.Statement .eepromReadReq := rfl

theorem EncodedLength.getFwVersionReq :
    EncodedLength.Statement .getFwVersionReq := rfl

theorem EncodedLength.getSerialNoReq :
    EncodedLength.Statement .getSerialNoReq := rfl

theorem EncodedLength.getDevEuiReq :
    EncodedLength.Statement .getDevEuiReq := rfl

theorem EncodedLength.joinReq :
    EncodedLength.Statement .joinReq := rfl

theorem EncodedLength.getActivationStatusReq :
    EncodedLength.Statement .getActivationStatusReq := rfl

theorem EncodedLength.setAppKeyReq :
    EncodedLength.Statement .setAppKeyReq := rfl

theorem EncodedLength.txMsgReq :
    EncodedLength.Statement .txMsgReq := rfl

theorem EncodedLength.setChParametersReq :
    EncodedLength.Statement .setChParametersReq := rfl

theorem EncodedLength.moduleResetCmdReply :
    EncodedLength.Statement .moduleResetCmdReply := rfl

theorem EncodedLength.eepromWriteReply :
    EncodedLength.Statement .eepromWriteReply := rfl

theorem EncodedLength.eepromReadReply :
    EncodedLength.Statement .eepromReadReply := rfl

theorem EncodedLength.getFwVersionReply :
    EncodedLength.Statement .getFwVersionReply := rfl

theorem EncodedLength.getSerialNoReply :
    EncodedLength.Statement .getSerialNoReply := rfl

theorem EncodedLength.getDevEuiReply :
    EncodedLength.Statement .getDevEuiReply := rfl

theorem EncodedLength.joinReply :
    EncodedLength.Statement .joinReply := rfl

theorem EncodedLength.getActivationStatusReply :
    EncodedLength.Statement .getActivationStatusReply := rfl

theorem EncodedLength.setAppKeyReply :
    EncodedLength.Statement .setAppKeyReply := rfl

theorem EncodedLength.txMsgReply :
    EncodedLength.Statement .txMsgReply := rfl

theorem EncodedLength.setChParametersReply :
    EncodedLength.Statement .setChParametersReply := rfl

theorem EncodedLength.joinResultInd :
    EncodedLength.Statement .joinResultInd := rfl

theorem EncodedLength.confirmedTxResultInd :
    EncodedLength.Statement .confirmedTxResultInd := rfl

theorem EncodedLength.unconfirmedTxResultInd :
    EncodedLength.Statement .unconfirmedTxResultInd := rfl

theorem EncodedLength.rxMsgInd :
    EncodedLength.Statement .rxMsgInd := rfl

theorem EncodedLength.syncFiller :
    EncodedLength.Statement .syncFiller := rfl

end Laws
end Sys2Proof
end

