-- ==== Sys2Proof/Laws/Step.lean ====
section
/-! SUPPORT. What a step can do, said once: the inversion of `exec`, of the Core's step and of `step`. -/

namespace Sys2Proof
namespace Machine

/-- A CODE instruction's meaning is the byte step on its byte. -/
theorem exec_of_codeByte {i : Instr} {b : Byte} (h : i.codeByte = some b) (s : State) :
    exec i s = byteStep b s := by
  cases i <;> cases h <;> rfl

/-- The CODE instruction fetched with a byte stands for that byte. -/
theorem fetchCode_codeByte {ph : RsmPhase} {b : Byte} {i : Instr} (h : fetchCode ph b = some i) :
    i.codeByte = some b := by
  have tab : ∀ x ∈ codeTable, x.2.codeByte = some x.1 := by decide
  have look : ∀ (l : List (Byte × Instr)), (∀ x ∈ l, x.2.codeByte = some x.1) → ∀ j,
      l.lookup b = some j → j.codeByte = some b := by
    intro l
    induction l with
    | nil => intro _ j hj; cases hj
    | cons x l ih =>
      intro hl j hj
      rw [List.lookup_cons] at hj
      split at hj
      · rename_i hb
        cases hj
        rw [hl x (by simp), eq_of_beq hb]
      · exact ih (fun y hy => hl y (by simp [hy])) j hj
  unfold fetchCode at h
  split at h
  · cases h
  · split at h
    · cases h; rename_i hb; subst hb; rfl
    · cases h
  · unfold decodeCode at h
    cases hl : codeTable.lookup b with
    | none => simp [hl] at h
    | some j =>
      simp only [hl, Option.some.injEq] at h
      subst h
      exact look _ tab _ hl
  · cases h
  · cases h

/-- The Core's step on a counted byte is the byte step after the pop, whatever instruction it is. -/
theorem receiveByte_eq (b : Byte) (s : State) : receiveByte b s = byteStep b (rxPop s) := by
  unfold receiveByte
  split
  · rename_i i h
    exact exec_of_codeByte (fetchCode_codeByte h) _
  · rfl

/-- What the Core can do in a receive phase (R183, R191). -/
theorem receivePhaseStep_next {s t : State} (h : receivePhaseStep s = .next t) :
    s.rsm.phase ≠ .idle ∧
    ((∃ b, countedHead s = some b ∧ byteStep b (rxPop s) = .next t) ∨
     (countedHead s = none ∧ timeoutEnabled s = true ∧ withinOverrun s.env.now.toNat s = true ∧
       applyRsm (rsmTimeout s.rsm) s = .next t) ∨
     (countedHead s = none ∧ timeoutEnabled s = false ∧ t = s)) := by
  unfold receivePhaseStep at h
  split at h
  · cases h
  · refine ⟨‹_›, ?_⟩
    split at h
    · rename_i b hb
      rw [receiveByte_eq] at h
      exact .inl ⟨b, hb, h⟩
    · rename_i hb
      unfold receiveWait at h
      split at h
      · unfold timeoutStep at h
        split at h
        · exact .inr (.inl ⟨hb, ‹_›, ‹_›, h⟩)
        · cases h
      · rename_i ht
        exact .inr (.inr ⟨hb, by simpa using ht, by cases h; rfl⟩)

/-- What the Core can do in `CTL_IDLE` (R121, R123). -/
theorem idlePhaseStep_next {s t : State} (h : idlePhaseStep s = .next t) :
    (s.host.busy = false ∧ t = acceptStep s) ∨
    (s.host.busy = true ∧ ∃ i, decodeOp s.host.curOp = .ok i ∧ exec i s = .next t) ∨
    (s.host.busy = true ∧ ∃ e, decodeOp s.host.curOp = .error e ∧ e.isIllegalOp = true ∧
      t = raise .illegalOp s) := by
  unfold idlePhaseStep at h
  split at h
  · unfold runOp at h
    split at h
    · exact .inr (.inl ⟨‹_›, _, ‹_›, h⟩)
    · unfold illegalStep at h
      split at h
      · exact .inr (.inr ⟨‹_›, _, ‹_›, ‹_›, by cases h; rfl⟩)
      · cases h
  · rename_i hb
    exact .inl ⟨by simpa using hb, by cases h; rfl⟩

/-- What the Core's step can do, by controller phase. -/
theorem coreStep_next {s t : State} (h : coreStep s = .next t) :
    (s.ctl = .idle ∧ idlePhaseStep s = .next t) ∨
    ((s.ctl = .receive ∨ s.ctl = .rrAttempt ∨ s.ctl = .pollReceive) ∧ receivePhaseStep s = .next t) ∨
    (s.ctl = .trWake ∧ whenReached s.twUntil transactionTransmit s = .next t) ∨
    (s.ctl = .mrLow ∧ whenReached s.mrUntil moduleResetRelease s = .next t) ∨
    (s.ctl = .mrSettle ∧ whenReached s.mrUntil moduleResetDone s = .next t) := by
  unfold coreStep at h
  split at h <;> simp_all

/-- What a step can do: the Core moves, or another agent does. -/
theorem step_next {s t : State} (h : step s = .next t) :
    s.params.ok = true ∧
    ((s.env.agenda = [] ∧ coreStep s = .next t) ∨
     ∃ a rest, s.env.agenda = a :: rest ∧ turnStep a { s with env.agenda := rest } = .next t) := by
  unfold step at h
  split at h
  · refine ⟨‹_›, ?_⟩
    split at h
    · exact .inl ⟨‹_›, h⟩
    · exact .inr ⟨_, _, ‹_›, h⟩
  · cases h

/-- What another agent's turn can do (R6, R66 to R68, R121, R420). -/
theorem turnStep_next {a : Turn} {s t : State} (h : turnStep a s = .next t) :
    (a = .core ∧ coreStep s = .next t) ∨
    (∃ op, a = .host op ∧ op.wf = true ∧ t = { s with env.hostQueue := s.env.hostQueue ++ [op] }) ∨
    (∃ b u, a = .rx b u ∧ s.env.lastArrival ≤ u ∧ u ≤ s.env.now ∧
      t = { s with env.rx := s.env.rx ++ [(b, u)], env.lastArrival := u }) ∨
    (a = .txTake ∧ t = txTakeTurn s) ∨
    (∃ n, a = .time n ∧ n < 2 ^ 64 ∧ s.env.now.toNat ≤ n ∧ passesOverrun n s = false ∧
      t = { s with env.now := BitVec.ofNat 64 n }) ∨
    (a = .rst ∧ t = blockReset s) := by
  cases a with
  | core => exact .inl ⟨rfl, h⟩
  | host op =>
    simp only [turnStep, hostTurn] at h
    split at h
    · exact .inr (.inl ⟨op, rfl, ‹_›, by cases h; rfl⟩)
    · cases h
  | rx b u =>
    simp only [turnStep, rxTurn] at h
    split at h
    · rename_i hok
      simp only [arrivalOk, Bool.and_eq_true, decide_eq_true_eq] at hok
      exact .inr (.inr (.inl ⟨b, u, rfl, hok.1, hok.2, by cases h; rfl⟩))
    · cases h
  | txTake => exact .inr (.inr (.inr (.inl ⟨rfl, by cases h; rfl⟩)))
  | time n =>
    simp only [turnStep, timeTurn] at h
    split at h
    · cases h
    · split at h
      · cases h
      · split at h
        · cases h
        · exact .inr (.inr (.inr (.inr (.inl ⟨n, rfl, by omega, by omega, by simp_all, by cases h; rfl⟩))))
  | rst => exact .inr (.inr (.inr (.inr (.inr ⟨rfl, by cases h; rfl⟩))))

end Machine
end Sys2Proof
end

