-- ==== Sys2Proof/Tests/Slice0.lean ====
section
/-! SUPPORT. The model's own tests. The words, the vectors and the expected values are those of
spec/95_test_vectors.md (the row is named in the docstring) or are worked out by hand from the rule named
there. The second part holds a witness for the hypotheses of each statement that has some. -/

namespace Sys2Proof
namespace Tests

open Machine Claims

/-! ## Helpers -/

/-- The outcome is a next state with this property. -/
def after (o : Host.Outcome State Fault Refusal) (p : State → Bool) : Bool :=
  match o with
  | .next s => p s
  | .fault _ => false
  | .refused _ => false

/-- The outcome is this refusal. -/
def refuses (o : Host.Outcome State Fault Refusal) (r : Refusal) : Bool :=
  match o with
  | .next _ => false
  | .fault _ => false
  | .refused r' => r' == r

/-- A host operation has been accepted. -/
def running (op : HostOp) : State :=
  { State.reset with host.busy := true, host.curOp := op }

/-- A receive of the given controller phase is running, in this RSM phase, with the deadline 1000. -/
def recv (ctl : CtlPhase) (ph : RsmPhase) (e : Option Byte) : State :=
  { State.reset with
    ctl := ctl, host.busy := true, rsm.phase := ph, rsm.expected := e, rsm.deadline := 1000#64,
    rsm.sum := 0xAA#8 }

/-- The RSM's registers one byte before the checksum byte of `AA 48 01 00 0D`. -/
def bodyEnd (e : Option Byte) : Rsm :=
  { Rsm.reset with
    phase := .readBody, expected := e, deadline := 1000#64, code := 0x48#8, len := 1#8, sum := 0xF3#8,
    count := 1#9 }

/-- The frame `{0x48, 1, [00]}` of the vectors. -/
def ind48 : DecodedFrame := { code := 0x48#8, length := 1#8, payload := [0x00#8] }

/-- The frame `{0xB4, 4, [78 56 34 12]}` of the vectors. -/
def fwReply : DecodedFrame := { code := 0xB4#8, length := 4#8, payload := [0x78#8, 0x56#8, 0x34#8, 0x12#8] }

/-- A queue that holds `ind48` alone, in slot 31 (95 section 2.4, the wrap rows). -/
def queue31 : Queue :=
  { Queue.reset with entry := Queue.reset.entry.set 31 ind48, head := 31#5, count := 1#6 }

/-- Bytes that all arrived at 0. -/
def at0 (bs : List Byte) : List (Byte × Time) := bs.map fun b => (b, 0#64)

/-- A RECEIVE's RSM, just started with the deadline 1000. -/
def hunting (e : Option Byte) : Rsm :=
  { Rsm.reset with phase := .huntSync, expected := e, deadline := 1000#64 }

/-! ## Well-formedness -/

theorem test_wf_refuses_long_encode : (Instr.encode 0x34#8 (List.replicate 65536 0#8)).wf = false := by
  rw [Instr.wf, fitsPlen, List.length_replicate]; rfl

theorem test_wf_refuses_long_check : (Instr.check (List.replicate 65536 0#8)).wf = false := by
  rw [Instr.wf, fitsPlen, List.length_replicate]; rfl

theorem test_wf_refuses_long_send : (Instr.send 0x34#8 (List.replicate 65536 0#8)).wf = false := by
  rw [Instr.wf, fitsPlen, List.length_replicate]; rfl

theorem test_wf_refuses_long_transaction :
    (Instr.transaction 0x34#8 (List.replicate 65536 0#8) 0#32 none 8#8 false).wf = false := by
  rw [Instr.wf, fitsPlen, List.length_replicate]; rfl

theorem test_wf_accepts_longest_payload : (Instr.send 0x34#8 (List.replicate 65535 0#8)).wf = true := by
  rw [Instr.wf, fitsPlen, List.length_replicate]; rfl

/-- `CHECK` with `PLEN = 4` and three operand bytes is no record of R120. -/
theorem test_hostOp_wf_refuses_missing_byte :
    ({ header := 0x000000000000040000000002#96, data := [0xAA#8, 0x36#8, 0x00#8] } : HostOp).wf = false := by
  decide

theorem test_hostOp_wf_refuses_extra_byte :
    ({ header := 0x000000000000000000000006#96, data := [0x00#8] } : HostOp).wf = false := by decide

theorem test_hostOp_wf_accepts :
    ({ header := 0x000000000000040000000002#96, data := [0xAA#8, 0x36#8, 0x00#8, 0x20#8] } : HostOp).wf
      = true := by decide

/-! ## Decoding -/

/-- 95 section 2.1, each word as printed there. -/
theorem test_decode_encode : decodeTableWord 96 0x000000000000000000003401 = some (.encode 0x34#8 []) := by
  decide

/-- 95 P5: `CHECK bytes=[AA 36 00 20]`, the operand bytes above the header. -/
theorem test_decode_check : decodeTableWord 128 0x200036AA000000000000040000000002 =
    some (.check [0xAA#8, 0x36#8, 0x00#8, 0x20#8]) := by decide

theorem test_decode_send : decodeTableWord 96 0x000000000000000000003403 = some (.send 0x34#8 []) := by
  decide

theorem test_decode_receive_any :
    decodeTableWord 96 0x000003E80000000000000004 = some (.receive 1000#32 none) := by decide

theorem test_decode_receive_expect :
    decodeTableWord 96 0x0003D090000000000001C604 = some (.receive 250000#32 (some 0xC6#8)) := by decide

theorem test_decode_requestReply : decodeTableWord 96 0x0003D0900000000804023405 =
    some (.requestReply 0x34#8 250000#32 (some 4#8) 8#8 false) := by decide

theorem test_decode_dequeue : decodeTableWord 96 0x000000000000000000000006 = some .dequeue := by decide

theorem test_decode_pollIndication :
    decodeTableWord 96 0x000003E80000000000000007 = some (.pollIndication 1000#32) := by decide

/-- The word of 95 S8, its payload `01 01 DE AD` above the header. -/
theorem test_decode_transaction : decodeTableWord 128 0xADDE01010003D0900000040801024608 =
    some (.transaction 0x46#8 [0x01#8, 0x01#8, 0xDE#8, 0xAD#8] 250000#32 (some 1#8) 8#8 false) := by
  decide

theorem test_decode_transaction_strict : decodeTableWord 96 0x000186A00000000204063508 =
    some (.transaction 0x35#8 [] 100000#32 (some 4#8) 2#8 true) := by decide

theorem test_decode_wakeup : decodeTableWord 96 0x000000000000000000000009 = some .wakeup := by decide

theorem test_decode_sleep : decodeTableWord 96 0x00000000000000000000000A = some .sleep := by decide

theorem test_decode_moduleReset :
    decodeTableWord 96 0x00000000000000000000000B = some .moduleReset := by decide

/-- 95 section 2.1, the illegal words. -/
theorem test_decode_refuses_illegal :
    ([0x000000000000000000000000, 0x00000000000000000000000C, 0x0000000000000000000000FF,
      0x000000000000000000010006, 0x000000000000000000023403, 0x000003E80000000000080004,
      0x000000000100000000000006, 0x000000000000010000000006].map (decodeTableWord 96)).all
        Option.isNone = true := by decide

/-- 95 section 2.1, the words with a field that their row does not read. -/
theorem test_decode_ignores_unread_fields :
    decodeTableWord 96 0x000000000000000000005506 = some .dequeue ∧
    decodeTableWord 96 0x000003E80000000500000004 = some (.receive 1000#32 none) ∧
    decodeTableWord 96 0x000003E80000000807003405 =
      some (.requestReply 0x34#8 1000#32 none 8#8 false) := by decide

/-- The command codes of R116. -/
theorem test_decode_commands :
    [0x30, 0x32, 0x33, 0x34, 0x35, 0x36, 0x40, 0x42, 0x43, 0x46, 0x57].map (decodeTableWord 8) =
      [some .moduleResetCmdReq, some .eepromWriteReq, some .eepromReadReq, some .getFwVersionReq,
       some .getSerialNoReq, some .getDevEuiReq, some .joinReq, some .getActivationStatusReq,
       some .setAppKeyReq, some .txMsgReq, some .setChParametersReq] := by decide

/-- The reply codes of R116. -/
theorem test_decode_replies :
    [0xB0, 0xB2, 0xB3, 0xB4, 0xB5, 0xB6, 0xC0, 0xC2, 0xC3, 0xC6, 0xD7].map (decodeTableWord 8) =
      [some .moduleResetCmdReply, some .eepromWriteReply, some .eepromReadReply, some .getFwVersionReply,
       some .getSerialNoReply, some .getDevEuiReply, some .joinReply, some .getActivationStatusReply,
       some .setAppKeyReply, some .txMsgReply, some .setChParametersReply] := by decide

/-- The indication codes of R116, and the SYNC value. -/
theorem test_decode_indications :
    [0x41, 0x47, 0x48, 0x49, 0xAA].map (decodeTableWord 8) =
      [some .joinResultInd, some .confirmedTxResultInd, some .unconfirmedTxResultInd, some .rxMsgInd,
       some .syncFiller] := by decide

/-- R116, R117: an UNKNOWN byte is rejected by name (0xB1 is the one of 95 V11). -/
theorem test_decode_unknown_code : decodeCode 0xB1#8 = .error (.unknownCode 0xB1#8) := by decide

/-- R120: the header's bytes, the least significant first, then the operand bytes. -/
theorem test_encode_send : Sys2Proof.encode (.send 0x34#8 [0x00#8, 0x99#8]) =
    [0x03#8, 0x34#8, 0x00#8, 0x00#8, 0x00#8, 0x02#8, 0x00#8, 0x00#8, 0x00#8, 0x00#8, 0x00#8, 0x00#8,
     0x00#8, 0x99#8] := by decide

theorem test_encode_txMsgReply : Sys2Proof.encode .txMsgReply = [0xC6#8] := by decide

/-! ## Codec -/

/-- 95 section 2.2: `ENCODE code=0x56 payload=[]`, whose checksum is 0. -/
theorem test_encode_checksum_zero :
    after (exec (.encode 0x56#8 []) State.reset) (fun s =>
      s.host.result.out == [0xAA#8, 0x56#8, 0x00#8, 0x00#8] && s.host.result.status == 0x00#8) = true := by
  decide

/-- 95 section 2.2: `ENCODE code=0x32 payload=[10 02 CA FE]`. -/
theorem test_encode_payload :
    after (exec (.encode 0x32#8 [0x10#8, 0x02#8, 0xCA#8, 0xFE#8]) State.reset) (fun s =>
      s.host.result.out == [0xAA#8, 0x32#8, 0x04#8, 0x10#8, 0x02#8, 0xCA#8, 0xFE#8, 0x46#8]) = true := by
  decide

/-- 95 section 2.2: only the sum is tested, so `01 FF` passes. -/
theorem test_check_passes : after (exec (.check [0x01#8, 0xFF#8]) State.reset) (fun s =>
    s.host.result.checkOk) = true := by decide

/-- 95 section 2.2: the firmware reply with a wrong checksum byte. -/
theorem test_check_fails :
    after (exec (.check [0xAA#8, 0xB4#8, 0x04#8, 0x78#8, 0x56#8, 0x34#8, 0x12#8, 0x8B#8]) State.reset)
      (fun s => !s.host.result.checkOk && s.host.resultValid) = true := by decide

/-- 95 section 2.2: `SEND code=0x34 payload=[]` with `wake_n = 1`. -/
theorem test_send : after (exec (.send 0x34#8 []) State.reset) (fun s =>
    s.env.tx == [0xAA#8, 0x34#8, 0x00#8, 0x22#8] && s.pins.wakeN) = true := by decide

/-- 95 section 2.2: 256 payload bytes. -/
theorem test_send_too_large :
    after (exec (.send 0x34#8 (List.replicate 256 0#8)) State.reset) (fun s =>
      s.env.tx.isEmpty && s.host.result.status == 0x04#8) = true := by decide +kernel

/-! ## Receives -/

/-- 95 V16: `RECEIVE timeout=0` at 5 has the deadline 5. -/
theorem test_receive_deadline :
    after (exec (.receive 0#32 none) { State.reset with env.now := 5#64 }) (fun s =>
      s.rsm.deadline == 5#64 && s.ctl == .receive && s.rsm.phase == .huntSync) = true := by decide

/-- 93 U10. -/
theorem test_receive_overflow_refused :
    refuses (exec (.receive 1#32 none) { State.reset with env.now := BitVec.allOnes 64 })
      .deadlineOverflow = true := by decide

/-- 95 S2 and V2: a garbage byte, then a frame. -/
theorem test_garbage_then_frame :
    let g := bigStep (at0 [0x13#8, 0xAA#8, 0xB4#8, 0x04#8, 0x78#8, 0x56#8, 0x34#8, 0x12#8, 0x8A#8]) (hunting none)
    g.outcome = .frame fwReply false ∧ g.rx = [] ∧ g.events = [.discard 0x13#8] := by decide +kernel

/-- 95 S3: a bad checksum, then a good frame. -/
theorem test_bad_checksum_then_frame :
    let g := bigStep (at0 [0xAA#8, 0xB4#8, 0x04#8, 0x78#8, 0x56#8, 0x34#8, 0x12#8, 0x8B#8, 0xAA#8, 0xC6#8,
      0x01#8, 0x00#8, 0x8F#8]) (hunting none)
    g.outcome = .frame { code := 0xC6#8, length := 1#8, payload := [0x00#8] } false ∧
      g.events = [.checksumMismatch] := by decide +kernel

/-- 95 V1: filler bytes. -/
theorem test_filler :
    let g := bigStep (at0 [0xAA#8, 0xAA#8, 0xAA#8, 0x48#8, 0x01#8, 0x00#8, 0x0D#8]) (hunting none)
    g.outcome = .frame ind48 true ∧ g.events = [.filler, .filler] := by decide +kernel

/-- 95 V4: the `AA` inside the payload of a bad frame is no SYNC. -/
theorem test_no_backtracking :
    let g := bigStep (at0 [0xAA#8, 0x49#8, 0x02#8, 0xAA#8, 0x48#8, 0x00#8, 0xAA#8, 0x49#8, 0x01#8, 0xAA#8,
      0x62#8]) (hunting none)
    g.outcome = .frame { code := 0x49#8, length := 1#8, payload := [0xAA#8] } true ∧
      g.events = [.checksumMismatch] := by decide +kernel

/-- 95 V14: the checksum byte arrives at the deadline and stays. -/
theorem test_byte_at_deadline :
    let g := bigStep (at0 [0xAA#8, 0x48#8, 0x01#8, 0x00#8] ++ [(0x0D#8, 1000#64)]) (hunting none)
    g.outcome = .timedOut ∧ g.rx = [(0x0D#8, 1000#64)] ∧ g.events = [.timeout .readBody] := by decide

/-- 95 V20: the bytes after the frame stay. -/
theorem test_rest_stays :
    (bigStep (at0 [0xAA#8, 0xC6#8, 0x01#8, 0x00#8, 0x8F#8, 0xAA#8, 0x41#8]) (hunting none)).rx =
      at0 [0xAA#8, 0x41#8] := by decide

/-- The timeout step of 95 Q4: the result at the deadline. -/
theorem test_timeout :
    after (step { recv .pollReceive .huntSync none with env.now := 1000#64 }) (fun s =>
      s.host.result.status == 0x01#8 && s.ctl == .idle && s.log.events == [.timeout .huntSync]) = true := by
  decide

/-! ## CODE bytes (R186, R117): each of the eleven commands is unexpected when none is expected, and each
reply and indication is accepted -/

/-- R117: a COMMAND byte with no expected code. -/
theorem test_commands_unexpected :
    (commandInstrs.all fun i => after (exec i (recv .receive .huntCode none)) fun s =>
      s.rsm.phase == .huntSync && s.log.events.length == 1) = true := by decide

/-- 95 V9: a command code is accepted when it is the expected code; the sum is `AA + 46 = F0`. -/
theorem test_txMsgReq_expected :
    after (exec .txMsgReq (recv .receive .huntCode (some 0x46#8))) (fun s =>
      s.rsm.phase == .readLen && s.rsm.code == 0x46#8 && s.rsm.sum == 0xF0#8) = true := by decide

/-- R186: any reply is accepted when none is expected. -/
theorem test_replies_accepted :
    (replyInstrs.all fun i => after (exec i (recv .receive .huntCode none)) fun s =>
      s.rsm.phase == .readLen && some s.rsm.code == i.codeByte && s.log.events.isEmpty) = true := by decide

/-- 95 V5: the firmware reply is unexpected when 0xC6 is expected. -/
theorem test_getFwVersionReply_unexpected :
    after (exec .getFwVersionReply (recv .receive .huntCode (some 0xC6#8))) (fun s =>
      s.rsm.phase == .huntSync && s.log.events == [.unexpectedByte 0xB4#8]) = true := by decide

/-- 95 V18: an indication is accepted whatever is expected. -/
theorem test_indications_accepted :
    (indicationInstrs.all fun i => after (exec i (recv .receive .huntCode (some 0xAA#8))) fun s =>
      s.rsm.phase == .readLen && some s.rsm.code == i.codeByte) = true := by decide

/-- R184: SYNC. -/
theorem test_sync : after (exec .syncFiller (recv .receive .huntSync none)) (fun s =>
    s.rsm.phase == .huntCode && s.rsm.sum == 0xAA#8) = true := by decide

/-- R188: in READ_BODY a byte is data; the last byte of `AA 48 01 00 0D` ends the RECEIVE. -/
theorem test_body_end :
    after (byteStep 0x0D#8 { recv .receive .readBody none with rsm := bodyEnd none }) (fun s =>
      s.host.result.frame == some ind48 && s.host.result.isIndication && !s.host.result.matched &&
        s.rsm.phase == .idle && s.queue.count == 0#6) = true := by decide

/-! ## Queue (95 section 2.4) -/

theorem test_enqueue_wraps : (queue31.push fwReply).count = 2#6 ∧ (queue31.push fwReply).entry[0] = fwReply ∧
    (queue31.push fwReply).head = 31#5 := by decide

theorem test_enqueue_full_drops :
    let q : Queue := { Queue.reset with count := 32#6 }
    (enqueue ind48 { State.reset with queue := q }).queue = q ∧
    (enqueue ind48 { State.reset with queue := q }).log.events = [.queueDrop ind48] := by decide

theorem test_dequeue_wraps :
    after (exec .dequeue { State.reset with queue := { queue31 with count := 2#6 } }) (fun s =>
      s.host.result.frame == some ind48 && s.queue.head == 0#5 && s.queue.count == 1#6) = true := by decide

theorem test_dequeue_empty : after (exec .dequeue State.reset) (fun s =>
    s.host.result.status == 0x05#8 && !s.host.result.frameValid) = true := by decide

/-! ## Correlator (95 sections 2.5 and 2.6) -/

/-- 95 C3: `retries=0`. -/
theorem test_requestReply_zero :
    after (exec (.requestReply 0x34#8 1000#32 none 0#8 false)
      { State.reset with env.rx := at0 [0xAA#8, 0xB4#8] }) (fun s =>
        s.host.result.status == 0x02#8 && s.env.rx == at0 [0xAA#8, 0xB4#8] && s.ctl == .idle) = true := by
  decide

/-- R261: the first attempt expects 0xB4, with one attempt fewer left. -/
theorem test_requestReply_starts :
    after (exec (.requestReply 0x34#8 1000#32 (some 4#8) 8#8 false) State.reset) (fun s =>
      s.rsm.expected == some 0xB4#8 && s.corr.remaining == 7#8 && s.rsm.deadline == 1000#64) = true := by
  decide

/-- 95 C10: an indication of the expected length is queued, and returned by the legacy exhaustion. -/
theorem test_indication_is_no_reply :
    after (deliver (.frame ind48 true) { recv .rrAttempt .idle (some 0xC6#8) with
      corr := corrStart 0x46#8 1000#32 (some 1#8) 0#8 false false }) (fun s =>
        s.queue.count == 1#6 && s.host.result.frame == some ind48 && !s.host.result.matched &&
          s.host.result.isIndication) = true := by decide

/-- 95 C9: a reply of the wrong length exhausts a strict correlation. -/
theorem test_strict_wrong_length :
    after (deliver (.frame { code := 0xB5#8, length := 2#8, payload := [0x01#8, 0x00#8] } false)
      { recv .rrAttempt .idle (some 0xB5#8) with
        corr := corrStart 0x35#8 1000#32 (some 4#8) 0#8 true false }) (fun s =>
          s.host.result.status == 0x02#8 && !s.host.result.frameValid && s.ctl == .idle) = true := by decide

/-- 95 T4, at 0: the pin is low and nothing is sent. -/
theorem test_transaction_wakes :
    after (exec (.transaction 0x34#8 [] 1000#32 none 1#8 false)
      { State.reset with params.tWake := 500#64 }) (fun s =>
        !s.pins.wakeN && s.env.tx.isEmpty && s.twUntil == 500#64 && s.ctl == .trWake) = true := by decide

/-- 95 T2: the payload check comes before the pin. -/
theorem test_transaction_too_large :
    after (exec (.transaction 0x46#8 (List.replicate 256 0#8) 1000#32 none 8#8 false) State.reset) (fun s =>
      s.host.result.status == 0x04#8 && s.pins.wakeN && s.log.pins.isEmpty) = true := by decide +kernel

/-! ## Polling and pins (95 section 2.7) -/

/-- 95 Q1: the drain path. -/
theorem test_poll_drains :
    after (exec (.pollIndication 1000#32) { State.reset with queue := queue31 }) (fun s =>
      s.host.result.frame == some ind48 && s.pins.wakeN && s.queue.count == 0#6) = true := by decide

/-- 95 Q2, its start: the module is woken and no code is expected. -/
theorem test_poll_receives :
    after (exec (.pollIndication 1000#32) State.reset) (fun s =>
      !s.pins.wakeN && s.rsm.expected == none && s.ctl == .pollReceive) = true := by decide

/-- 95 Q5. -/
theorem test_wakeup : after (exec .wakeup State.reset) (fun s => !s.pins.wakeN) = true := by decide

theorem test_sleep : after (exec .sleep { State.reset with pins.wakeN := false }) (fun s =>
    s.pins.wakeN && s.log.pins == [{ pin := .wake, level := true, time := 0#64 }]) = true := by decide

/-- 95 Q6, at 0 and at 100 000. -/
theorem test_moduleReset_pulse : after (exec .moduleReset State.reset) (fun s =>
    !s.pins.resetN && s.mrUntil == 100000#64 && s.pins.wakeN) = true := by decide

theorem test_moduleReset_release :
    after (step { State.reset with
      ctl := .mrLow, host.busy := true, mrUntil := 100000#64, pins.resetN := false,
      env.now := 100000#64 }) (fun s =>
        s.pins.resetN && s.mrUntil == 2100000#64 && s.ctl == .mrSettle) = true := by decide

/-! ## The step -/

/-- 95 Q8. -/
theorem test_configuration_refused :
    refuses (step { State.reset with params.tResetLow := 50000#64 }) .configuration = true := by decide

/-- `withFetchWord` places a host word so that the next step runs it. -/
theorem test_step_runs_wakeup :
    after (step (State.reset.withFetchWord 96 0x000000000000000000000009)) (fun s =>
      !s.pins.wakeN && s.host.resultValid) = true := by decide

/-- `withFetchWord` places a CODE byte so that the next step runs it. -/
theorem test_step_runs_code :
    after (step (State.reset.withFetchWord 8 0xC6)) (fun s =>
      s.rsm.code == 0xC6#8 && s.rsm.phase == .readLen && s.env.rx.isEmpty) = true := by decide

/-- 95 section 2.1: the operand byte of an illegal operation goes with its header. -/
theorem test_illegal_op :
    after (step (running { header := 0x000000000000010000000006#96, data := [0x55#8] })) (fun s =>
      s.host.result.status == 0x06#8 && !s.host.busy && s.queue.count == 0#6) = true := by decide

/-- 95 T6: the block reset in the middle of a TRANSACTION's attempt. -/
theorem test_block_reset :
    after (step { recv .rrAttempt .huntSync (some 0xC6#8) with
      pins.wakeN := false, queue := queue31, env.tx := [0xAA#8], env.now := 200#64,
      env.agenda := [.rst] }) (fun s =>
        s.pins.wakeN && s.queue.count == 0#6 && !s.host.busy && s.env.tx == [0xAA#8] &&
          s.log.pins == [{ pin := .wake, level := true, time := 200#64 }]) = true := by decide

/-- R66 and R67: an agenda turn that the spec excludes is refused. -/
theorem test_excluded_turns :
    refuses (step { State.reset with env.now := 5#64, env.agenda := [.time 4] }) .timeBackwards = true ∧
    refuses (step { State.reset with env.agenda := [.time (2 ^ 64)] }) .clockOverflow = true ∧
    refuses (step { State.reset with env.agenda := [.rx 0x00#8 1#64] }) .arrivalOutOfOrder = true := by decide

/-- R67: arrival times never decrease along the sequence, the bytes already popped included. -/
theorem test_arrival_before_a_popped_byte :
    let s := { recv .receive .huntSync none with
      env.now := 7#64, env.agenda := [.rx 0x13#8 7#64, .core, .rx 0xAA#8 6#64] }
    after (step s) (fun s => after (step s) fun s =>
      s.env.rx.isEmpty && refuses (step s) .arrivalOutOfOrder) = true := by decide

/-- R183: at `R_IDLE` no byte step is enabled, so the Core pops nothing (here a state that R55 excludes). -/
theorem test_no_pop_at_idle :
    step { recv .receive .idle none with env.rx := at0 [0xC6#8] } = .fault .receiveWithoutRsm := rfl

/-- R424: the run is not over while an operation is still to be presented. -/
theorem test_run_over :
    { State.reset with env.agenda := [.txTake, .time 5] }.runOver = true ∧
    { State.reset with
      env.agenda := [.time 5, .host { header := 0x000000000000000000000009#96, data := [] }] }.runOver
        = false := by decide

/-- R192: with `T_OVERRUN = 10`, Time does not pass 1010 while the timeout waits. -/
theorem test_overrun_bound :
    let s := { recv .receive .huntSync none with params.tOverrun := 10#64 }
    refuses (step { s with env.agenda := [.time 1011] }) .timeoutOverdue = true ∧
    after (step { s with env.agenda := [.time 1010] }) (fun s => s.env.now == 1010#64) = true := by decide

/-! ## Façade (95 section 2.8) and assembler (R125) -/

theorem test_facade_arguments :
    (FacadeCall.eepromRead 255 1 []).argsOk = true ∧ (FacadeCall.eepromRead 255 2 []).argsOk = false ∧
    (FacadeCall.txMsg 223 true (List.replicate 209 0#8)).argsOk = true ∧
    (FacadeCall.txMsg 224 true []).argsOk = false ∧ (FacadeCall.setChParameters 2 0 0 0 []).argsOk = false := by decide +kernel

/-- The serial numbers and the EUI of 95 section 2.8. -/
theorem test_facade_replies :
    FacadeCall.getSerialNo.decodeReply [0xEF#8, 0xBE#8, 0xAD#8, 0xDE#8] = some (.number 0xDEADBEEF) ∧
    FacadeCall.getDevEui.decodeReply [0x08#8, 0x07#8, 0x06#8, 0x05#8, 0x04#8, 0x03#8, 0x02#8, 0x01#8] =
      some (.eui [0x01#8, 0x02#8, 0x03#8, 0x04#8, 0x05#8, 0x06#8, 0x07#8, 0x08#8]) ∧
    facadeReply Params.default .getSerialNo
      (frameResult { code := 0xB5#8, length := 2#8, payload := [0x01#8, 0x00#8] } false false) = none := by
  decide

/-- R317: the activation status is a byte at offset 0. R331: a status byte `0x00` is success. -/
theorem test_facade_first_byte :
    (FacadeCall.getActivationStatus []).decodeReply [0x02#8, 0x07#8] = some (.byte 0x02#8) ∧
    (FacadeCall.join []).decodeReply [0x00#8] = some (.status true) ∧
    (FacadeCall.join []).decodeReply [0x01#8] = some (.status false) := by decide

/-- 95 section 2.1. -/
theorem test_assemble_requestReply :
    (readLine "REQUEST_REPLY cmd=0x34 timeout=250ms len=4".toList).bind AsmLine.assemble =
      some { header := 0x0003D0900000000804023405#96, data := [] } := by decide +kernel

/-- R125, R126: the alias, a byte list and a comment. -/
theorem test_assemble_txFrame :
    (readLine "TX_FRAME code=0x34 payload=[00 99] ; alias".toList).bind AsmLine.assemble =
      some { header := 0x000000000000020000003403#96, data := [0x00#8, 0x99#8] } := by decide +kernel

theorem test_read_environment_lines :
    readLine "RX @500: AA 48".toList = some (.rx 500 [0xAA#8, 0x48#8]) ∧
    readLine "TIME 2s".toList = some (.time 2000000) := by decide +kernel

theorem test_turns_of_lines :
    (AsmLine.rx 500 [0xAA#8, 0x48#8]).turns = [.rx 0xAA#8 500#64, .rx 0x48#8 500#64] ∧
    AsmLine.wakeup.turns = [.host { header := 0x000000000000000000000009#96, data := [] }] := by decide

/-! ## Witnesses: for each statement with hypotheses, values that meet them, at the boundaries of its
clauses -/

/-- An accepted TRANSACTION whose wake wait is over. -/
def waking (retries : Byte) : State :=
  { running { header := 0x000003E80000000000003408#96 ||| (retries.setWidth 96 <<< 32), data := [] } with
    ctl := .trWake, pins.wakeN := false }

/-- A TRANSACTION's attempt that is one byte from the end of an indication. -/
def transactionAttempt (retries : Byte) : State :=
  { recv .rrAttempt .readBody (some 0xB4#8) with
    rsm := bodyEnd (some 0xB4#8), corr := corrStart 0x34#8 1000#32 none retries false true,
    pins.wakeN := false, env.rx := at0 [0x0D#8] }

/-- A MODULE_RESET in its low phase, which ends at 100 000. -/
def resetLow (now : Time) (agenda : List Turn) : State :=
  { State.reset with
    ctl := .mrLow, host.busy := true, mrUntil := 100000#64, pins.resetN := false, env.now := now,
    env.agenda := agenda }

theorem witness_DecodeEncodeRoundTrip :
    (Instr.transaction 0xFF#8 (List.replicate 65535 0xFF#8) (BitVec.allOnes 32) (some 0xFF#8) 0xFF#8
      true).wf = true ∧ Instr.rxMsgInd.wf = true := by
  refine ⟨?_, rfl⟩
  rw [Instr.wf, fitsPlen, List.length_replicate]; rfl

/-- One record that matches a row, one that matches none. -/
theorem witness_LegalHeadersMatchTheOpcodeTable :
    ({ header := 0x000186A00000000204063508#96, data := [] } : HostOp).wf = true ∧
    ({ header := 0x00000000000000000000000C#96, data := [] } : HostOp).wf = true := by decide

theorem witness_OperandAssembly :
    decodeOp { header := 0xFFFFFFFF000001FFFF063408#96, data := [0x55#8] } =
      .ok (.transaction 0x34#8 [0x55#8] (BitVec.allOnes 32) (some 0xFF#8) 0xFF#8 true) ∧
    decodeOp { header := 0x00000000000000000001FF04#96, data := [] } =
      .ok (.receive 0#32 (some 0xFF#8)) := by decide

/-- One illegal word for each of R123's conditions, and its accepted state. -/
theorem witness_IllegalHostOperations :
    (isIllegal (Header.ofBits 0x00000000000000000000000C#96) ∧
      isIllegal (Header.ofBits 0x000003E80000000000080004#96) ∧
      isIllegal (Header.ofBits 0x000000000000000000010006#96) ∧
      isIllegal (Header.ofBits 0x000000000000010000000006#96)) ∧
    ({ header := 0x000000000000010000000006#96, data := [0x00#8] } : HostOp).wf = true ∧
    accepted { header := 0x000000000000010000000006#96, data := [0x00#8] }
      (running { header := 0x000000000000010000000006#96, data := [0x00#8] }) := by
  refine ⟨⟨.inl (.inr (by decide)), .inr (.inl (.inl (by decide))),
    .inr (.inr (.inl (.inl (by decide)))), .inr (.inr (.inr (by decide)))⟩, by decide, ⟨rfl, rfl⟩, rfl, rfl, rfl⟩

/-- A legal word, and one that differs from it in a field that DEQUEUE does not read. -/
theorem witness_IllegalHostOperations_legal :
    ¬ isIllegal (Header.ofBits 0x000000000000000000005506#96) ∧
    sameReadFields (Header.ofBits 0x000000000000000000000006#96)
      (Header.ofBits 0x000000000000000000005506#96) := by
  constructor
  · rintro (h | h | h | h)
    · revert h; decide
    · revert h; decide
    · revert h; decide
    · revert h; decide
  · exact ⟨by decide, by decide, by decide, by decide, by decide, by decide, by decide, by decide,
      by decide, by decide, by decide⟩

theorem witness_CodeMapClasses : 0x41#8 ∈ Config.indSet ∧ 0xD7#8 ∈ Config.replySet ∧
    Instr.joinReq ∈ commandInstrs ∧ Instr.joinReply ∈ replyInstrs ∧ Instr.rxMsgInd ∈ indicationInstrs := by
  decide

theorem witness_StepRunsHostInstruction :
    let op : HostOp := { header := 0x000000000000000000000009#96, data := [] }
    (running op).params.ok = true ∧ (running op).ctl = .idle ∧ (running op).host.busy = true ∧
    decodeOp (running op).host.curOp = .ok .wakeup ∧ Instr.wakeup.wf = true ∧
    (running op).env.agenda = [] ∧
    ({ running op with env.agenda := [.core, .txTake] } : State).env.agenda = .core :: [.txTake] := by decide

/-- In HUNT_CODE with a byte at the last time that counts, in HUNT_SYNC with 0xAA, and a CODE at `R_IDLE`. -/
theorem witness_StepRunsCodeInstruction :
    let s := { recv .receive .huntCode none with env.rx := [(0xC6#8, 999#64)] }
    coreNext s ∧ s.ctl.receiving = true ∧ s.rsm.phase ≠ .idle ∧ s.env.rx = (0xC6#8, 999#64) :: [] ∧ 999#64 < s.rsm.deadline ∧
    decodeCode 0xC6#8 = .ok .txMsgReply ∧ s.rsm.phase = .huntCode ∧
    decodeCode 0xAA#8 = .ok .syncFiller ∧ (recv .receive .huntSync none).rsm.phase = .huntSync ∧
    Instr.syncFiller.codeByte = some 0xAA#8 ∧ State.reset.rsm.phase = .idle := by
  unfold coreNext
  decide

theorem witness_PresentedOperationHeld :
    let op : HostOp := { header := 0x00000000000000000000000A#96, data := [] }
    let s := { State.reset with env.agenda := [.host op] }
    let u := { State.reset with env.hostQueue := [op] }
    (s.params.ok = true ∧ op.wf = true ∧ s.env.agenda = .host op :: []) ∧
    (coreNext u ∧ u.ctl = .idle ∧ u.host.busy = false ∧ u.env.hostQueue = op :: []) ∧
    (∃ t, (running op).host.busy = true ∧ step (running op) = .next t) ∧
    (running op).env.agenda.head? ≠ some .rst ∧
    (coreNext State.reset ∧ State.reset.ctl = .idle ∧ State.reset.host.busy = false ∧
      State.reset.env.hostQueue = []) ∧
    (∃ t, step { u with env.agenda := [] } = .next t) ∧
    (∃ r, step { recv .receive .huntSync none with
      env.now := 1001#64, params.tOverrun := 0#64, env.agenda := [] } = .refused r) ∧
    ∃ f, step { recv .receive .idle none with env.agenda := [] } = .fault f := by
  refine ⟨by decide, ?_, ⟨_, rfl, rfl⟩, by decide, ?_, ⟨_, rfl⟩, ⟨_, rfl⟩, _, rfl⟩ <;> unfold coreNext <;> decide

theorem witness_EncodedFramesPassCheck : (List.replicate 255 0xFF#8).length ≤ 255 := by
  rw [List.length_replicate]

theorem witness_EncodeReturnsFrame : ([] : List Byte).length ≤ 255 ∧ (List.replicate 255 0#8).length ≤ 255 := by
  rw [List.length_replicate]; exact ⟨by decide, Nat.le_refl _⟩

theorem witness_SendWritesFrame : ([] : List Byte).length ≤ 255 ∧ (List.replicate 255 0#8).length ≤ 255 :=
  witness_EncodeReturnsFrame

theorem witness_PayloadTooLargeChangesOnlyResult : 255 < (List.replicate 256 0#8).length := by
  rw [List.length_replicate]; decide

theorem witness_DequeueReturnsOldest :
    State.reset.queue.count = 0#6 ∧
    (queue31.count ≠ 0#6 ∧ queue31.entry[queue31.head.toNat]? = some ind48) := by decide

/-- A full queue, and one with one slot left. -/
theorem witness_EnqueueDropsNewest :
    ({ Queue.reset with count := 32#6 } : Queue).count.toNat = 32 ∧
    ({ Queue.reset with count := 31#6 } : Queue).count.toNat < 32 := by decide

theorem witness_QueueRefinesBoundedFifo :
    ({ Queue.reset with count := 32#6, head := 31#5 } : Queue).count.toNat ≤ 32 := by decide

theorem witness_QueueBackpressure :
    ({ Queue.reset with head := 31#5 } : Queue).count = 0#6 ∧ (List.replicate 33 ind48).length = 33 := by
  decide

theorem witness_QueueEntriesPersist :
    let s := { running { header := 0x000000000000000000000006#96, data := [] } with queue := queue31 }
    let u := { s with env.agenda := [.rst] }
    (s.queue.count.toNat ≤ 32 ∧ s.env.agenda.head? ≠ some .rst ∧ ∃ t, step s = .next t) ∧
    u.queue.count.toNat ≤ 32 ∧ u.env.agenda.head? = some .rst ∧ ∃ t, step u = .next t :=
  ⟨⟨by decide, by decide, _, rfl⟩, by decide, by decide, _, rfl⟩

/-- After a finished DEQUEUE its `cur_op` stays, and the Core's next step removes nothing. -/
theorem test_stale_operation :
    let s := { State.reset with
      host.curOp := { header := 0x000000000000000000000006#96, data := [] }, queue := queue31 }
    after (step s) (fun t => t.queue.count == 1#6 && !t.host.resultValid) = true := by decide

theorem witness_SyncAndFillerSteps :
    (recv .receive .huntSync none).rsm.phase = .huntSync ∧
    (recv .receive .huntCode none).rsm.phase = .huntCode ∧ 0x13#8 ≠ 0xAA#8 := by decide

theorem witness_CommandCodesInHuntCode :
    Instr.txMsgReq ∈ commandInstrs ∧ Instr.txMsgReq.codeByte = some 0x46#8 ∧
    (recv .receive .huntCode (some 0x46#8)).rsm.phase = .huntCode ∧
    (recv .receive .huntCode (some 0x46#8)).rsm.expected = some 0x46#8 ∧
    (recv .receive .huntCode none).rsm.expected ≠ some 0x46#8 := by decide

theorem witness_ReplyCodesInHuntCode :
    Instr.txMsgReply ∈ replyInstrs ∧ Instr.txMsgReply.codeByte = some 0xC6#8 ∧
    (recv .receive .huntCode none).rsm.phase = .huntCode ∧
    (recv .receive .huntCode none).rsm.expected = none ∧
    (recv .receive .huntCode (some 0xC6#8)).rsm.expected = some 0xC6#8 ∧
    (recv .receive .huntCode (some 0xB4#8)).rsm.expected ≠ some 0xC6#8 ∧
    (recv .receive .huntCode (some 0xB4#8)).rsm.expected ≠ none := by decide

theorem witness_IndicationCodesInHuntCode :
    Instr.rxMsgInd ∈ indicationInstrs ∧ Instr.rxMsgInd.codeByte = some 0x49#8 ∧
    (recv .receive .huntCode (some 0xB4#8)).rsm.phase = .huntCode := by decide

/-- An expected code, an indication and a reply that are acceptable, and 0xB1, which is not. -/
theorem witness_HuntCodeStep :
    (recv .receive .huntCode none).rsm.phase = .huntCode ∧ 0xB1#8 ≠ 0xAA#8 ∧
    0x49#8 ∈ Config.indSet ∧ ((0xB4#8).getLsbD 7 = true ∧ 0xB4#8 &&& 0x7F#8 ∈ Config.cmdSet) ∧
    ¬ (((0xB1#8).getLsbD 7 = true ∧ 0xB1#8 &&& 0x7F#8 ∈ Config.cmdSet) ∨ 0xB1#8 ∈ Config.indSet) := by decide

/-- A payload byte, a checksum byte that fails and one that passes; and the count at its largest. -/
theorem witness_LengthAndBodySteps :
    (recv .receive .readLen none).rsm.phase = .readLen ∧ (bodyEnd none).phase = .readBody ∧
    ({ bodyEnd none with count := 0#9 } : Rsm).count.toNat < (bodyEnd none).len.toNat ∧
    (bodyEnd none).count.toNat = (bodyEnd none).len.toNat ∧
    (bodyEnd none).sum + 0x0D#8 = 0#8 ∧ (bodyEnd none).sum + 0x0E#8 ≠ 0#8 ∧
    ({ bodyEnd none with len := 255#8, count := 255#9 } : Rsm).count.toNat ≤ 255 := by decide

/-- A stream that gives a frame, and one that times out, at the deadline. -/
theorem witness_BigStepIsTheRunOfByteSteps :
    let s := { recv .receive .huntSync none with env.rx := at0 [0x13#8] }
    let u := { s with env.now := 1000#64 }
    coreNext s ∧ s.ctl = .receive ∧ s.rsm.phase ≠ .idle ∧
    (bigStep u.env.rx u.rsm).outcome = .timedOut ∧ u.rsm.deadline ≤ u.env.now ∧
    u.env.now.toNat ≤ u.rsm.deadline.toNat + u.params.tOverrun.toNat ∧
    (bigStep (at0 [0x0D#8]) (bodyEnd none)).outcome = .frame { ind48 with payload := [0x00#8] } true := by
  unfold coreNext
  decide +kernel

theorem witness_CodecAndRsmAgree :
    ([0x00#8] : List Byte).length ≤ 255 ∧ 0xC6#8 ≠ 0xAA#8 ∧ codeOk 0xC6#8 (hunting none).expected = true ∧
    (hunting none).phase = .huntSync ∧
    (at0 (frame 0xC6#8 [0x00#8])).map Prod.fst = frame 0xC6#8 [0x00#8] ∧
    ∀ x ∈ at0 (frame 0xC6#8 [0x00#8]), x.2 < (hunting none).deadline := by
  refine ⟨by decide, by decide, by decide, rfl, by decide, fun x hx => ?_⟩
  obtain ⟨b, -, rfl⟩ := List.mem_map.1 hx
  exact (by decide : (0#64 : Time) < 1000#64)

theorem witness_AcceptedFramesAreValid :
    (bodyEnd none).Sound ∧ (rsmByte 0x0D#8 (bodyEnd none)).outcome = some (.frame ind48 true) := by
  refine ⟨?_, by decide +kernel⟩
  show _ ∧ _ ∧ _ ∧ _
  refine ⟨by decide, by decide, by decide, by decide +kernel⟩

theorem witness_RsmSoundKept :
    (transactionAttempt 1#8).rsm.Sound ∧ ∃ t, step (transactionAttempt 1#8) = .next t := by
  refine ⟨?_, _, rfl⟩
  show _ ∧ _ ∧ _ ∧ _
  refine ⟨by decide, by decide, by decide, by decide +kernel⟩

/-- At the deadline, at the end of the reporting window, and one microsecond before the deadline. -/
theorem witness_TimeoutStep :
    let s := { recv .receive .huntSync none with
      params.tOverrun := 10#64, env.rx := [(0x0D#8, 1000#64)], env.now := 1010#64 }
    coreNext s ∧ s.ctl.receiving = true ∧ s.rsm.phase ≠ .idle ∧ s.rsm.deadline ≤ (1000#64 : Time) ∧
    s.rsm.deadline ≤ s.env.now ∧ s.env.now.toNat ≤ s.rsm.deadline.toNat + s.params.tOverrun.toNat ∧
    999#64 < s.rsm.deadline := by
  unfold coreNext
  decide

theorem witness_TimeoutReportingBound :
    let s := { recv .receive .huntSync none with params.tOverrun := 10#64, env.now := 1000#64 }
    let u := { s with env.agenda := [.time 1010] }
    (∃ t, step s = .next t ∧ t.log.events = s.log.events ++ [.timeout .huntSync]) ∧
    u.env.agenda = .time 1010 :: [] ∧ timeoutEnabled u = true ∧ ∃ t, step u = .next t :=
  ⟨⟨_, rfl, rfl⟩, rfl, by decide, _, rfl⟩

/-- The deadline at its largest, 2^64 - 1. -/
theorem witness_ReceiveStarts :
    ({ State.reset with env.now := 0xFFFFFFFF00000000#64 } : State).env.now.toNat +
      (BitVec.allOnes 32).toNat < 2 ^ 64 := by decide

/-- The first deadline that overflows, for each kind of wait. -/
theorem witness_OverflowRefusesTheRun :
    let s := { State.reset with env.now := 0xFFFFFFFF00000001#64, params.tWake := 0x00000000FFFFFFFF#64 }
    2 ^ 64 ≤ s.env.now.toNat + (BitVec.allOnes 32).toNat ∧ s.queue.count = 0#6 ∧ 1#8 ≠ 0#8 ∧
    2 ^ 64 ≤ s.env.now.toNat + s.params.tWake.toNat ∧ ([] : List Byte).length ≤ 255 ∧
    2 ^ 64 ≤ (BitVec.allOnes 64).toNat + s.params.tResetLow.toNat := by decide

/-- The same in mid-operation: the transmit step, the settle wait, a later attempt, and Time. -/
theorem witness_OverflowRefusesTheRun_later :
    let w := { waking 1#8 with env.now := 0xFFFFFFFFFFFFFC18#64 }
    let a := { transactionAttempt 1#8 with env.now := 0xFFFFFFFFFFFFFC18#64, corr.expLen := some 2#8 }
    let z := resetLow 0xFFFFFFFFFFE17B80#64 []
    (coreNext w ∧ w.ctl = .trWake ∧ w.twUntil ≤ w.env.now ∧ 1#8 ≠ 0#8 ∧
      2 ^ 64 ≤ w.env.now.toNat + (1000#32).toNat ∧
      decodeOp w.host.curOp = .ok (.transaction 0x34#8 [] 1000#32 none 1#8 false)) ∧
    (a.corr.remaining ≠ 0#8 ∧ 2 ^ 64 ≤ a.env.now.toNat + a.corr.timeout.toNat ∧ a.ctl = .rrAttempt ∧
      a.corr.expLen = some 2#8 ∧ ind48.length ≠ 2#8) ∧
    (coreNext z ∧ z.ctl = .mrLow ∧ z.mrUntil ≤ z.env.now ∧
      2 ^ 64 ≤ z.env.now.toNat + z.params.tSettle.toNat) ∧
    (State.reset.params.ok = true ∧
      ({ State.reset with env.agenda := [.time (2 ^ 64)] } : State).env.agenda = .time (2 ^ 64) :: []) := by
  unfold coreNext
  decide

theorem witness_BareReceiveEnds :
    (recv .receive .idle none).ctl = .receive ∧ (recv .pollReceive .idle none).ctl = .pollReceive := by decide

theorem witness_RequestReplyStarts :
    1#8 ≠ 0#8 ∧ State.reset.env.now.toNat + (BitVec.allOnes 32).toNat < 2 ^ 64 := by decide

theorem witness_CorrelatorAttempts :
    let s := { recv .rrAttempt .readBody (some 0xB4#8) with
      corr := corrStart 0x34#8 1000#32 (some 4#8) 1#8 false false }
    s.corr.remaining ≠ 0#8 ∧ s.env.now.toNat + s.corr.timeout.toNat < 2 ^ 64 ∧ s.ctl = .rrAttempt ∧
    s.params.lastFrame = .anyFrame ∧
    ({ s with params.lastFrame := .repliesOnly } : State).params.lastFrame = .repliesOnly ∧
    s.corr.expLen = some 4#8 ∧ ind48.length ≠ 4#8 ∧ s.corr.expLen = some fwReply.length ∧
    (corrStart 0x34#8 1000#32 none 0#8 false false).remaining = 0#8 ∧
    (corrStart 0x34#8 1000#32 none 0#8 false false).expLen = none := by decide

/-- The last clause of CorrelatorAttempts: an empty reply 0xB4, whose checksum byte is 0xA2. -/
theorem witness_CorrelatorAttempts_reply :
    let s := { recv .rrAttempt .readBody (some 0xB4#8) with
      corr := corrStart 0x34#8 1000#32 none 1#8 false false, rsm.code := 0xB4#8, rsm.sum := 0x5E#8 }
    s.ControlSound ∧ s.rsm.Sound ∧ s.ctl = .rrAttempt ∧
    (rsmByte 0xA2#8 s.rsm).outcome =
      some (.frame { code := 0xB4#8, length := 0#8, payload := [] } false) := by
  refine ⟨⟨by decide, by decide, by decide, by decide, fun h => ?_⟩, ?_, rfl, by decide +kernel⟩
  · cases h
  · show _ ∧ _ ∧ _ ∧ _
    refine ⟨by decide, by decide, by decide, by decide +kernel⟩

theorem witness_FinishingResults :
    let c := corrStart 0x34#8 1000#32 none 0#8
    ({ c false true with last := some ind48 } : Corr).strict = false ∧
    ({ c false true with last := some ind48 } : Corr).last = some ind48 ∧
    (c true false).strict = true ∧ (c false false).last = none := by decide

/-- The last attempt: an end that finishes exhausted, and a step that does not; then a start, and a transmit step of
two TRANSACTIONs that differ in `STRICT`. -/
theorem witness_StrictModeDiffersOnlyAtExhaustion :
    let s := transactionAttempt 0#8
    let u := { s with env.rx := [], env.agenda := [.txTake] }
    let op : HostOp := { header := 0x000003E80000000100043408#96, data := [] }
    ({ s with corr.strict := true } : State).corr.strict = true ∧
    (∃ t, step s = .next t ∧ finishesExhausted s t) ∧
    ((∃ t, step u = .next t ∧ t.ctl ≠ .idle) ∧ u.ctl ≠ .idle ∧ u.ctl ≠ .trWake ∧
      u.env.agenda.head? ≠ some .rst) ∧
    (∃ t, exec (.requestReply 0x34#8 1000#32 none 1#8 false) State.reset = .next t) ∧
    (coreNext (waking 1#8) ∧ (waking 1#8).ctl = .trWake ∧
      decodeOp (waking 1#8).host.curOp = .ok (.transaction 0x34#8 [] 1000#32 none 1#8 false) ∧
      decodeOp op = .ok (.transaction 0x34#8 [] 1000#32 none 1#8 true) ∧
      (waking 1#8).twUntil ≤ (waking 1#8).env.now ∧ ∃ t, step (waking 1#8) = .next t) :=
  ⟨rfl, ⟨_, rfl, rfl, by decide, rfl, rfl⟩, ⟨⟨_, rfl, by decide⟩, by decide, by decide, by decide⟩, ⟨_, rfl⟩,
    ⟨rfl, rfl⟩, rfl, by decide, by decide, by decide, _, rfl⟩

/-- The match of a last attempt, an empty reply 0xB4, is no exhausted end; a refusal and a fault. -/
theorem witness_StrictModeDiffersOnlyAtExhaustion_match :
    let s := { recv .rrAttempt .readBody (some 0xB4#8) with
      corr := corrStart 0x34#8 1000#32 none 0#8 false false, rsm.code := 0xB4#8, rsm.sum := 0x5E#8,
      env.rx := at0 [0xA2#8] }
    (∃ t, step s = .next t ∧ t.ctl = .idle ∧ t.host.result.matched = true ∧ ¬ finishesExhausted s t) ∧
    (∃ r, step { s with env.agenda := [.time (2 ^ 64)] } = .refused r) ∧
    ∃ f, step { s with rsm.phase := .idle } = .fault f :=
  ⟨⟨_, rfl, rfl, rfl, fun h => Bool.noConfusion h.2.2.2⟩, ⟨_, rfl⟩, _, rfl⟩

theorem witness_TransactionOpensAwakeWindow :
    (List.replicate 255 0#8).length ≤ 255 ∧
    State.reset.env.now.toNat + (BitVec.allOnes 64).toNat < 2 ^ 64 := by
  rw [List.length_replicate]; exact ⟨Nat.le_refl _, by decide⟩

/-- The wait is over, with and without attempts; and it is not over. -/
theorem witness_TransactionTransmits :
    coreNext (waking 1#8) ∧ (waking 1#8).ctl = .trWake ∧
    decodeOp (waking 1#8).host.curOp = .ok (.transaction 0x34#8 [] 1000#32 none 1#8 false) ∧
    decodeOp (waking 0#8).host.curOp = .ok (.transaction 0x34#8 [] 1000#32 none 0#8 false) ∧
    (waking 1#8).twUntil ≤ (waking 1#8).env.now ∧
    (waking 1#8).env.now.toNat + (1000#32 : BitVec 32).toNat < 2 ^ 64 ∧
    ({ waking 1#8 with twUntil := 1#64 } : State).env.now < 1#64 := by
  unfold coreNext
  decide

/-- The end of a TRANSACTION with no attempt left, and the end of one with no attempt at all. -/
theorem witness_TransactionScopedRelease :
    ((transactionAttempt 0#8).ctl = .rrAttempt ∧ (transactionAttempt 0#8).corr.ctx = true ∧
      ∃ t, step (transactionAttempt 0#8) = .next t ∧ t.ctl = .idle) ∧
    ((waking 0#8).ctl = .trWake ∧ ∃ t, step (waking 0#8) = .next t ∧ t.ctl = .idle) ∧
    (waking 0#8).env.agenda.head? ≠ some .rst :=
  ⟨⟨rfl, rfl, _, rfl, rfl⟩, ⟨rfl, _, rfl, rfl⟩, by decide⟩

theorem witness_PollIndicationDrainsOrReceives :
    (queue31.count ≠ 0#6 ∧ queue31.entry[queue31.head.toNat]? = some ind48) ∧
    State.reset.queue.count = 0#6 ∧
    State.reset.env.now.toNat + (BitVec.allOnes 32).toNat < 2 ^ 64 := by decide

theorem witness_PollLeavesPinsAlone :
    let s := { recv .pollReceive .huntSync none with pins.wakeN := false, env.now := 1000#64 }
    s.ctl = .pollReceive ∧ s.env.agenda.head? ≠ some .rst ∧ ∃ t, step s = .next t :=
  ⟨rfl, by decide, _, rfl⟩

theorem witness_ModuleResetPulse :
    State.reset.env.now.toNat + State.reset.params.tResetLow.toNat < 2 ^ 64 ∧
    coreNext (resetLow 99999#64 []) ∧ (resetLow 99999#64 []).env.now < (resetLow 99999#64 []).mrUntil ∧
    (resetLow 100000#64 []).mrUntil ≤ (resetLow 100000#64 []).env.now ∧
    (resetLow 100000#64 []).ctl = .mrLow ∧
    (resetLow 100000#64 []).env.now.toNat + (resetLow 100000#64 []).params.tSettle.toNat < 2 ^ 64 ∧
    ({ resetLow 100000#64 [] with ctl := .mrSettle } : State).ctl = .mrSettle := by
  unfold coreNext
  decide

/-- While the reset pin is low an operation is presented; then the pulse's start and its end; then a
configuration below each bound. -/
theorem witness_ModuleResetHoldsOperations :
    let op : HostOp := { header := 0x000000000000000000000006#96, data := [] }
    let s := resetLow 99999#64 [.host op]
    let u := running { header := 0x00000000000000000000000B#96, data := [] }
    (s.ctl = .mrLow ∧ s.env.now < s.mrUntil ∧ s.env.agenda.head? ≠ some .rst ∧ ∃ t, step s = .next t) ∧
    (u.ctl = .idle ∧ ∃ t, step u = .next t ∧ t.ctl = .mrLow) ∧
    ((resetLow 100000#64 []).ctl = .mrLow ∧
      ∃ t, step (resetLow 100000#64 []) = .next t ∧ t.ctl = .mrSettle) ∧
    ({ State.reset with params.tResetLow := 99999#64 } : State).params.tResetLow.toNat < 100000 ∧
    ({ State.reset with params.tSettle := 1999999#64 } : State).params.tSettle.toNat < 2000000 :=
  ⟨⟨rfl, by decide, by decide, _, rfl⟩, ⟨rfl, _, rfl, rfl⟩, ⟨rfl, _, rfl, rfl⟩, by decide, by decide⟩

theorem witness_PinsSoundKept :
    (transactionAttempt 1#8).PinsSound ∧ (resetLow 100000#64 []).PinsSound ∧
    (∃ t, step (transactionAttempt 1#8) = .next t) ∧ ∃ t, step (resetLow 100000#64 []) = .next t := by
  refine ⟨?_, ?_, ⟨_, rfl⟩, _, rfl⟩ <;> unfold State.PinsSound <;> decide

theorem witness_ControlSoundKept :
    (transactionAttempt 1#8).ControlSound ∧ (∃ t, step (transactionAttempt 1#8) = .next t) ∧
    (waking 1#8).ControlSound ∧ ∃ t, step (waking 1#8) = .next t := by
  refine ⟨⟨by decide, by decide, by decide, by decide, fun h => ?_⟩, ⟨_, rfl⟩,
    ⟨by decide, by decide, by decide, by decide, fun _ => ⟨0x34#8, [], 1000#32, none, 1#8, false, ?_⟩⟩, _, rfl⟩
  · cases h
  · decide

theorem witness_CoreNeverFaults : (transactionAttempt 1#8).ControlSound := witness_ControlSoundKept.1

theorem witness_StreamsStayOrdered :
    let s := { State.reset with
      env.now := 7#64, env.rx := [(0x00#8, 3#64), (0x01#8, 7#64)], env.lastArrival := 7#64,
      env.agenda := [.rx 0x02#8 7#64] }
    s.env.Sound ∧ ∃ t, step s = .next t := by
  refine ⟨⟨by decide, ?_, by decide⟩, _, rfl⟩
  simp

/-- A step; then a byte at each end of its range and one out of it; a TX byte and none; and Time, at the end
of the reporting window, with a counted byte at the head, and backwards. -/
theorem witness_RxNeverFlushed :
    let s := { recv .receive .huntSync none with
      env.now := 7#64, env.lastArrival := 3#64, params.tOverrun := 10#64 }
    let b := { s with env.agenda := [.rx 0x00#8 3#64] }
    let x := { s with env.tx := [0xAA#8], env.agenda := [.txTake] }
    let n := { s with env.agenda := [.time 1010] }
    let m := { s with env.rx := [(0x13#8, 999#64)], env.agenda := [.time (2 ^ 64 - 1)] }
    (∃ t, step (transactionAttempt 1#8) = .next t) ∧
    (b.params.ok = true ∧ b.env.agenda = .rx 0x00#8 3#64 :: [] ∧ b.env.lastArrival ≤ (3#64 : Time) ∧
      (3#64 : Time) ≤ b.env.now ∧ (7#64 : Time) ≤ b.env.now ∧ (2#64 : Time) < b.env.lastArrival ∧
      b.env.now < (8#64 : Time)) ∧
    (x.params.ok = true ∧ x.env.agenda = .txTake :: [] ∧ x.env.tx = 0xAA#8 :: [] ∧ b.env.tx = []) ∧
    (n.params.ok = true ∧ n.env.agenda = .time 1010 :: [] ∧ n.env.now.toNat ≤ 1010 ∧
      1010 ≤ n.rsm.deadline.toNat + n.params.tOverrun.toNat ∧ 6 < n.env.now.toNat) ∧
    (m.env.rx.head? = some (0x13#8, 999#64) ∧ (999#64 : Time) < m.rsm.deadline ∧
      State.reset.rsm.phase = .idle) :=
  ⟨⟨_, rfl⟩, by decide, by decide, by decide, by decide⟩

/-- R66 and R67: Time's turn moves `now` and nothing else; the Transport takes the oldest TX byte. -/
theorem test_turns :
    after (step { State.reset with env.agenda := [.time 9] }) (fun t =>
      t == { State.reset with env.now := 9#64 }) = true ∧
    after (step { State.reset with env.tx := [0xAA#8, 0x34#8], env.agenda := [.txTake] }) (fun t =>
      t == { State.reset with env.tx := [0x34#8], env.txTaken := [0xAA#8] }) = true := by decide +kernel

theorem witness_TxGrowsByWholeFrames :
    (∃ t, step (waking 1#8) = .next t) ∧
    ∃ t, step (running { header := 0x000000000000000000003403#96, data := [] }) = .next t :=
  ⟨⟨_, rfl⟩, _, rfl⟩

theorem witness_ResultWrittenOnceAtTheEnd :
    (transactionAttempt 0#8).ControlSound ∧ (transactionAttempt 0#8).env.agenda.head? ≠ some .rst ∧
    ∃ t, step (transactionAttempt 0#8) = .next t := by
  refine ⟨⟨by decide, by decide, by decide, by decide, fun h => ?_⟩, by decide, _, rfl⟩
  cases h

theorem witness_FramesSoundKept :
    { transactionAttempt 0#8 with queue := queue31, corr.last := some fwReply }.FramesSound ∧
    ∃ t, step { transactionAttempt 0#8 with queue := queue31, corr.last := some fwReply } = .next t := by
  refine ⟨⟨⟨?_, ?_, ?_, ?_, ?_⟩, ⟨?_, ?_⟩, ?_⟩, _, rfl⟩
  · exact ⟨.ok, by decide, rfl⟩
  · rfl
  · intro f h; cases h
  · intro _; exact ⟨rfl, rfl⟩
  · decide
  · decide
  · decide +kernel
  · intro f h; cases h; rfl

theorem witness_BlockResetStep :
    (resetLow 5#64 [.rst]).params.ok = true ∧ (resetLow 5#64 [.rst]).env.agenda = .rst :: [] := by decide

/-- With an operation presented: while one runs, and when the Core accepts it. -/
theorem witness_PortSoundKept :
    let op : HostOp := { header := 0x000000000000000000000006#96, data := [] }
    let s := { running op with env.agenda := [.host op] }
    let u := { State.reset with env.hostQueue := [op] }
    (s.PortSound ∧ ∃ t, step s = .next t) ∧ (u.PortSound ∧ ∃ t, step u = .next t) := by
  refine ⟨⟨?_, _, rfl⟩, ?_, _, rfl⟩ <;> unfold State.PortSound <;> decide

/-- Arguments on either side of each bound, and at it; a matched firmware reply, and a status reply. -/
theorem witness_FacadeBoundary :
    ((255 < 256 ∨ 256 < 256 + 0) ∧ (255 < 255 ∨ 256 < 255 + 2) ∧ ([] : List Byte).length ≠ 16 ∧
      (0 < 1 ∨ 223 < 0) ∧ 223 < 224 ∧ 209 < (List.replicate 210 0#8).length ∧ (2 < 3 ∨ 15 < 2) ∧
      (16 < 3 ∨ 15 < 16)) ∧
    (255 ≤ 255 ∧ 255 + 1 ≤ 256 ∧ (List.replicate 16 0#8).length = 16 ∧ 223 ≤ 223 ∧
      (List.replicate 209 0#8).length ≤ 209 ∧ 3 ≤ 15 ∧ 15 ≤ 15) ∧
    (frameResult fwReply false true).matched = true ∧
    (frameResult fwReply false true).frame =
      some { code := 0xB4#8, length := 4#8, payload := [0x78#8, 0x56#8, 0x34#8, 0x12#8] } ∧
    (List.replicate 8 0#8).length = 8 ∧
    (FacadeCall.txMsg 1 true []).cmd ∈ [0x30#8, 0x32#8, 0x40#8, 0x43#8, 0x46#8, 0x57#8] ∧
    (frameResult { code := 0xC6#8, length := 1#8, payload := [0x00#8] } false true).frame =
      some { code := (FacadeCall.txMsg 1 true []).cmd ||| 0x80#8, length := 1#8, payload := 0x00#8 :: [] } ∧
    (FacadeCall.getActivationStatus []).cmd = 0x42#8 := by decide +kernel

end Tests
end Sys2Proof
end

section
/-! The CODE map (R8, R112, R116): the class of a byte read off the four code sets, the bytes that the
table names, and the count of those it does not. -/

namespace Sys2Proof
namespace CodeMap

open Machine Claims

/-! ## The code sets (R7, R8) -/

/-- A reply code is a command code with `REPLY_BIT` set (R8), which is what the test of R112 undoes. -/
theorem mem_replySet_iff (b : Byte) :
    b ∈ Config.replySet ↔ b.getLsbD 7 = true ∧ b &&& 0x7F#8 ∈ Config.cmdSet := by
  constructor
  · intro h
    have hset : ∀ c ∈ Config.replySet, c.getLsbD 7 = true ∧ c &&& 0x7F#8 ∈ Config.cmdSet := by decide
    exact hset b h
  · rintro ⟨hbit, hcmd⟩
    have hmsb : b &&& Config.replyBit = Config.replyBit :=
      (BitVec.and_twoPow b 7).trans (if_pos hbit)
    have hjoin : (b &&& 0x7F#8) ||| Config.replyBit = b := by
      calc (b &&& 0x7F#8) ||| Config.replyBit
          = (b &&& 0x7F#8) ||| (b &&& Config.replyBit) := by rw [hmsb]
        _ = b &&& (0x7F#8 ||| Config.replyBit) := BitVec.and_or_distrib_left.symm
        _ = b := BitVec.and_allOnes
    exact List.mem_map.2 ⟨_, hcmd, hjoin⟩

theorem cmdSet_disjoint_indSet : ∀ c ∈ Config.cmdSet, c ∉ Config.indSet := by decide

theorem replySet_disjoint : ∀ c ∈ Config.replySet, c ∉ Config.indSet ∧ c ∉ Config.cmdSet := by decide

theorem sync_not_mem_cmdSet : Config.sync ∉ Config.cmdSet := by decide

theorem sync_not_mem_indSet : Config.sync ∉ Config.indSet := by decide

theorem sync_not_mem_replySet : Config.sync ∉ Config.replySet := by decide

/-! ## The class of a byte (R112) -/

theorem classOf_eq (b : Byte) :
    classOf b = if b = Config.sync then .syncValue else if b ∈ Config.indSet then .indication
      else if b ∈ Config.replySet then .reply else if b ∈ Config.cmdSet then .command else .unknown := by
  simp only [classOf, mem_replySet_iff, List.contains_iff_mem, Bool.and_eq_true]

theorem classOf_sync : classOf Config.sync = .syncValue := by
  rw [classOf_eq, if_pos rfl]

theorem classOf_of_mem_indSet {b : Byte} (h : b ∈ Config.indSet) : classOf b = .indication := by
  have hsync : b ≠ Config.sync := fun e => sync_not_mem_indSet (e ▸ h)
  rw [classOf_eq, if_neg hsync, if_pos h]

theorem classOf_of_mem_replySet {b : Byte} (h : b ∈ Config.replySet) : classOf b = .reply := by
  have hsync : b ≠ Config.sync := fun e => sync_not_mem_replySet (e ▸ h)
  rw [classOf_eq, if_neg hsync, if_neg (replySet_disjoint b h).1, if_pos h]

theorem classOf_of_mem_cmdSet {b : Byte} (h : b ∈ Config.cmdSet) : classOf b = .command := by
  have hsync : b ≠ Config.sync := fun e => sync_not_mem_cmdSet (e ▸ h)
  have hreply : b ∉ Config.replySet := fun hr => (replySet_disjoint b hr).2 h
  rw [classOf_eq, if_neg hsync, if_neg (cmdSet_disjoint_indSet b h), if_neg hreply, if_pos h]

/-- A list of instructions whose bytes are those of a code set has that set's class. -/
theorem codeByte_map_classOf {is : List Instr} {bs : List Byte} {k : CodeClass}
    (hbytes : is.map Instr.codeByte = bs.map some) (hclass : ∀ b ∈ bs, classOf b = k) :
    ∀ i ∈ is, i.codeByte.map classOf = some k := by
  intro i hi
  have hmem : i.codeByte ∈ bs.map some := hbytes ▸ List.mem_map_of_mem hi
  obtain ⟨b, hb, hcode⟩ := List.mem_map.1 hmem
  rw [← hcode, Option.map_some, hclass b hb]

/-! ## The named codes (R116) -/

/-- The bytes that the CODE table names, in its order. -/
def namedCodes : List Byte := codeTable.map (·.1)

theorem namedCodes_eq :
    namedCodes = Config.cmdSet ++ Config.replySet ++ Config.indSet ++ [Config.sync] := rfl

theorem classOf_ne_unknown_iff (b : Byte) : classOf b ≠ .unknown ↔ b ∈ namedCodes := by
  simp only [namedCodes_eq, List.mem_append, List.mem_singleton]
  constructor
  · intro h
    by_contra hnot
    simp only [not_or] at hnot
    obtain ⟨⟨⟨hcmd, hreply⟩, hind⟩, hsync⟩ := hnot
    exact h (by rw [classOf_eq, if_neg hsync, if_neg hind, if_neg hreply, if_neg hcmd])
  · rintro (((hcmd | hreply) | hind) | rfl)
    · simp [classOf_of_mem_cmdSet hcmd]
    · simp [classOf_of_mem_replySet hreply]
    · simp [classOf_of_mem_indSet hind]
    · simp [classOf_sync]

theorem decodeCode_eq_ok_iff (b : Byte) (i : Instr) :
    decodeCode b = .ok i ↔ codeTable.lookup b = some i := by
  unfold decodeCode
  cases codeTable.lookup b <;> simp

theorem codeByte_of_decodeCode {b : Byte} {i : Instr} (h : decodeCode b = .ok i) :
    i.codeByte = some b :=
  fetchCode_codeByte (ph := .huntCode) (by simp only [fetchCode, h])

theorem exists_decodeCode_iff (b : Byte) :
    (∃ i, decodeCode b = .ok i ∧ i.codeByte = some b) ↔ b ∈ namedCodes := by
  calc (∃ i, decodeCode b = .ok i ∧ i.codeByte = some b)
      ↔ ∃ i, decodeCode b = .ok i :=
        exists_congr fun _ => and_iff_left_of_imp codeByte_of_decodeCode
    _ ↔ (codeTable.lookup b).isSome = true := by
        simp only [decodeCode_eq_ok_iff, Option.isSome_iff_exists]
    _ ↔ b ∈ namedCodes := by
        simp [List.lookup_isSome_iff, namedCodes]

/-! ## The UNKNOWN values (R117) -/

/-- Among the 256 values, those of a known class are the named codes, each once. -/
theorem known_values_perm :
    ((List.range 256).filter fun n => !decide (classOf (BitVec.ofNat 8 n) = .unknown)).Perm
      (namedCodes.map BitVec.toNat) := by
  have hnodup : (namedCodes.map BitVec.toNat).Nodup := by decide
  refine (List.perm_ext_iff_of_nodup (List.nodup_range.filter _) hnodup).2 fun n => ?_
  simp only [List.mem_filter, List.mem_range, Bool.not_eq_true', decide_eq_false_iff_not,
    List.mem_map]
  constructor
  · rintro ⟨hlt, hclass⟩
    exact ⟨_, (classOf_ne_unknown_iff _).1 hclass, (BitVec.toNat_ofNat _ _).trans (Nat.mod_eq_of_lt hlt)⟩
  · rintro ⟨b, hb, rfl⟩
    rw [BitVec.ofNat_toNat, BitVec.setWidth_eq]
    exact ⟨b.isLt, (classOf_ne_unknown_iff b).2 hb⟩

theorem unknown_values_length :
    ((List.range 256).filter fun n => classOf (BitVec.ofNat 8 n) = .unknown).length = 229 := by
  have hsplit := (List.range 256).length_eq_length_filter_add
    fun n => decide (classOf (BitVec.ofNat 8 n) = .unknown)
  have hknown : (namedCodes.map BitVec.toNat).length = 27 := rfl
  rw [List.length_range, known_values_perm.length_eq, hknown] at hsplit
  omega

/-- Settles O5: the disjoint code sets give the class of each named byte, and the table names those. -/
theorem codeMapClasses : Obligations.CodeMapClasses := by
  unfold Obligations.CodeMapClasses
  refine ⟨rfl, cmdSet_disjoint_indSet, replySet_disjoint, sync_not_mem_cmdSet, sync_not_mem_indSet,
    sync_not_mem_replySet, fun b => ?named, unknown_values_length, ?commands, ?replies, ?indications,
    ?filler⟩
  case named => rw [exists_decodeCode_iff, classOf_ne_unknown_iff]
  case commands => exact codeByte_map_classOf rfl fun _ => classOf_of_mem_cmdSet
  case replies => exact codeByte_map_classOf (bs := Config.replySet) rfl fun _ => classOf_of_mem_replySet
  case indications => exact codeByte_map_classOf rfl fun _ => classOf_of_mem_indSet
  case filler => exact congrArg some classOf_sync

end CodeMap
end Sys2Proof
end

section
/-! What a step can do to the whole state (R6, R30, R55), said once: `CoreMove` has one constructor for each
way in which the Core's step changes the state, and `step_moves` is the inversion of `step` into it. An
invariant of the block is then one case split handed the moves, packaged in `step_keeps`. -/

namespace Sys2Proof
namespace Machine

open Claims

/-! ## The end of a correlation, field by field (R262, R272) -/

@[simp] theorem endCorrelation_host (s : State) : (endCorrelation s).host = s.host := by
  unfold endCorrelation; split <;> rfl
@[simp] theorem endCorrelation_rsm (s : State) : (endCorrelation s).rsm = s.rsm := by
  unfold endCorrelation; split <;> rfl
@[simp] theorem endCorrelation_queue (s : State) : (endCorrelation s).queue = s.queue := by
  unfold endCorrelation; split <;> rfl
@[simp] theorem endCorrelation_corr (s : State) : (endCorrelation s).corr = s.corr := by
  unfold endCorrelation; split <;> rfl
@[simp] theorem endCorrelation_env (s : State) : (endCorrelation s).env = s.env := by
  unfold endCorrelation; split <;> rfl
@[simp] theorem endCorrelation_ctl (s : State) : (endCorrelation s).ctl = .idle := rfl
@[simp] theorem endCorrelation_resetN (s : State) : (endCorrelation s).pins.resetN = s.pins.resetN := by
  unfold endCorrelation; split <;> rfl
@[simp] theorem endCorrelation_results (s : State) : (endCorrelation s).log.results = s.log.results := by
  unfold endCorrelation; split <;> rfl

/-! ## Operations -/

/-- A host operation decodes to no CODE instruction (R122). -/
theorem codeByte_of_decodeOp {o : HostOp} {i : Instr} (h : decodeOp o = .ok i) : i.codeByte = none := by
  simp only [decodeOp] at h
  split at h
  · cases h
  · split at h
    · cases h
    · rename_i sel _
      split_ifs at h
      cases h
      cases sel <;> rfl

theorem payloadTooLarge_eq_false {p : List Byte} : payloadTooLarge p = false ↔ p.length ≤ 255 := by
  rw [payloadTooLarge, decide_eq_false_iff_not, Nat.not_lt, Config.maxPayload]

theorem length_frame (c : Byte) (p : List Byte) : (frame c p).length = p.length + 4 := by
  simp [frame, frameHeader]

/-! ## Sound results (R32, R34, R370) -/

/-- A result without a frame is sound when its status is the block's and `out` fits a frame. -/
theorem Result.sound_of_no_frame {st : Status} {ok : Bool} {out : List Byte} (hst : st ≠ .invalidArgument)
    (hout : out.length ≤ 259) :
    ({ Result.empty with status := st.code, checkOk := ok, out := out } : Result).Sound := by
  refine ⟨⟨st, hst, rfl⟩, rfl, ?_, fun _ => ⟨rfl, rfl⟩, hout⟩
  intro f h
  cases h

theorem statusResult_sound {st : Status} (hst : st ≠ .invalidArgument) :
    ({ Result.empty with status := st.code } : Result).Sound :=
  Result.sound_of_no_frame hst (by decide)

theorem frameResult_sound {f : DecodedFrame} {ind : Bool} (matched : Bool) (hwf : f.wf = true)
    (hind : ind = isIndication f.code) : (frameResult f ind matched).Sound := by
  refine ⟨⟨.ok, nofun, rfl⟩, rfl, ?_, ?_, Nat.zero_le _⟩
  · intro g h
    cases h
    exact ⟨hwf, hind⟩
  · intro h
    cases h

/-! ## The end of a receive -/

/-- A frame that the RSM hands handed is whole, and flagged by its code (R40, R190). -/
def RsmOutcome.Sound : RsmOutcome → Prop
  | .frame f ind => f.wf = true ∧ ind = isIndication f.code
  | .timedOut => True

theorem receiveResult_sound {o : RsmOutcome} (h : o.Sound) : (receiveResult o).Sound := by
  cases o with
  | frame f ind => exact frameResult_sound false h.1 h.2
  | timedOut => exact statusResult_sound (by decide)

/-- The running receive of `s` ends with the outcome `o`: the state in which the outcome is delivered, with the
RSM at `R_IDLE` and perhaps one byte popped (R190, R191, R195). Which events are recorded is left open. -/
inductive HandsOver (s : State) (o : RsmOutcome) : State → Prop
  | intro (r : Rsm) (rx : List (Byte × Time)) (es : List Event) (done : r.phase = .idle) (sound : o.Sound)
      (popped : rx <:+ s.env.rx) : HandsOver s o { s with rsm := r, env.rx := rx, log.events := es }

theorem handsOver_of_rsmByte {s : State} {b : Byte} {o : RsmOutcome}
    (ho : (rsmByte b s.rsm).outcome = some o) :
    HandsOver s o (record (rsmByte b s.rsm).events { rxPop s with rsm := (rsmByte b s.rsm).rsm }) := by
  rcases rsmByte_outcome b s.rsm with ⟨hnone, -⟩ | ⟨-, hidle, -, -, hframe⟩
  · rw [hnone] at ho
    cases ho
  · rw [hframe] at ho
    cases ho
    exact .intro _ _ _ hidle ⟨assembled_wf _, rfl⟩ (List.tail_suffix _)

theorem handsOver_of_rsmTimeout (s : State) :
    HandsOver s .timedOut (record (rsmTimeout s.rsm).events { s with rsm := (rsmTimeout s.rsm).rsm }) :=
  .intro _ _ _ rfl trivial (List.suffix_refl _)

/-! ## The Core's moves -/

/-- An accepted operation has had no step yet: the Core's next step is its first (R31, R55). -/
def State.AtFirstStep (s : State) : Prop := s.host.busy = true ∧ s.ctl = .idle

/-- The states from which a correlation goes on to its next attempt or to its end (R260, R261, R270). -/
inductive CorrelatesFrom (s : State) : State → Prop
  /-- REQUEST_REPLY starts. -/
  | request (c : Byte) (tm : BitVec 32) (n : Option Byte) (m : Byte) (st : Bool) (first : s.AtFirstStep) :
      CorrelatesFrom s { s with corr := corrStart c tm n m st false }
  /-- TRANSACTION has transmitted at the end of `CTL_TR_WAKE`. -/
  | transmit (c : Byte) (p : List Byte) (tm : BitVec 32) (n : Option Byte) (m : Byte) (st : Bool)
      (hctl : s.ctl = .trWake) (due : s.twUntil ≤ s.env.now)
      (hop : decodeOp s.host.curOp = .ok (.transaction c p tm n m st)) :
      CorrelatesFrom s { txWrite (frame c p) s with corr := corrStart c tm n m st true }
  /-- An attempt has ended without a match: a frame may have been observed, and an indication enqueued. -/
  | missed (o : RsmOutcome) (u : State) (last : Option DecodedFrame) (q : Queue) (es : List Event)
      (hctl : s.ctl = .rrAttempt) (handed : HandsOver s o u)
      (observed : last = s.corr.last ∨ ∃ f, last = some f ∧ f.wf = true)
      (enqueued : q = s.queue ∨ ∃ f, q = s.queue.push f ∧ f.wf = true ∧ isIndication f.code = true) :
      CorrelatesFrom s { u with corr.last := last, queue := q, log.events := es }

/-- What the Core's step can do. -/
inductive CoreMove (s : State) : State → Prop
  /-- No step is enabled (R424). -/
  | wait : CoreMove s s
  /-- The presented operation is accepted (R121). -/
  | accept (op : HostOp) (rest : List HostOp) (free : s.host.busy = false) (hctl : s.ctl = .idle)
      (presented : s.env.hostQueue = op :: rest) :
      CoreMove s { s with host.curOp := op, host.busy := true, env.hostQueue := rest }
  /-- An operation of one step ends with a sound result and does nothing else (R123, R151, R152, R156,
  R236). -/
  | answer (r : Result) (first : s.AtFirstStep) (sound : r.Sound) : CoreMove s (writeResult r s)
  /-- SEND (R158). -/
  | send (c : Byte) (p : List Byte) (first : s.AtFirstStep)
      (hop : decodeOp s.host.curOp = .ok (.send c p)) : CoreMove s (raise .ok (txWrite (frame c p) s))
  /-- The oldest indication is popped, by DEQUEUE or POLL_INDICATION (R236, R280). -/
  | dequeue (ind : Bool) (first : s.AtFirstStep) (nonempty : s.queue.isEmpty = false)
      (flagged : ind = true ∨ ind = isIndication s.queue.oldest.code) :
      CoreMove s (writeResult (frameResult s.queue.oldest ind false) { s with queue := s.queue.pop })
  /-- WAKEUP and SLEEP (R286, R287). -/
  | driveWake (v : Bool) (first : s.AtFirstStep) : CoreMove s (raise .ok (pinWriteWake v s))
  /-- RECEIVE starts (R180). -/
  | receive (d : Time) (e : Option Byte) (first : s.AtFirstStep) :
      CoreMove s { rsmStart d e s with ctl := .receive }
  /-- The receive of POLL_INDICATION starts (R280). -/
  | poll (d : Time) (first : s.AtFirstStep) :
      CoreMove s { rsmStart d none (pinWriteWake false s) with ctl := .pollReceive }
  /-- TRANSACTION starts (R270, R271, R274). -/
  | wake (u : Time) (c : Byte) (p : List Byte) (tm : BitVec 32) (n : Option Byte) (m : Byte) (st : Bool)
      (first : s.AtFirstStep) (hop : decodeOp s.host.curOp = .ok (.transaction c p tm n m st))
      (fits : payloadTooLarge p = false) :
      CoreMove s { pinWriteWake false s with twUntil := u, ctl := .trWake }
  /-- MODULE_RESET starts (R290). -/
  | resetLow (u : Time) (first : s.AtFirstStep) :
      CoreMove s { pinWriteReset false s with mrUntil := u, ctl := .mrLow }
  /-- MODULE_RESET at the end of `CTL_MR_LOW` (R290). -/
  | resetHigh (u : Time) (hctl : s.ctl = .mrLow) :
      CoreMove s { pinWriteReset true s with mrUntil := u, ctl := .mrSettle }
  /-- MODULE_RESET at the end of `CTL_MR_SETTLE` (R290). -/
  | resetDone (hctl : s.ctl = .mrSettle) : CoreMove s { raise .ok s with ctl := .idle }
  /-- A counted byte that ends no receive (R183 to R189). -/
  | byte (b : Byte) (counted : countedHead s = some b) (silent : (rsmByte b s.rsm).outcome = none) :
      CoreMove s (record (rsmByte b s.rsm).events { rxPop s with rsm := (rsmByte b s.rsm).rsm })
  /-- A bare receive ends (R180, R280). -/
  | received (o : RsmOutcome) (u : State) (hctl : s.ctl = .receive ∨ s.ctl = .pollReceive)
      (handed : HandsOver s o u) : CoreMove s (finishReceive o u)
  /-- An attempt ends with the reply (R261, R262). -/
  | matched (f : DecodedFrame) (u : State) (hctl : s.ctl = .rrAttempt)
      (handed : HandsOver s (.frame f false) u) : CoreMove s (finishMatched f u)
  /-- A correlation with no attempt left ends (R262). -/
  | exhausted (u : State) (origin : CorrelatesFrom s u) : CoreMove s (finishExhausted u)
  /-- A correlation's next attempt starts (R261, R265). -/
  | attempt (u : State) (d : Time) (origin : CorrelatesFrom s u) :
      CoreMove s { rsmStart d (some (replyCode u.corr.cmd))
        { u with corr.remaining := u.corr.remaining - 1#8 } with ctl := .rrAttempt }

/-! ## What a correlation goes on from -/

theorem HandsOver.rsm_idle {s u : State} {o : RsmOutcome} (h : HandsOver s o u) : u.rsm.phase = .idle := by
  cases h
  assumption

theorem CorrelatesFrom.host {s u : State} (h : CorrelatesFrom s u) : u.host = s.host := by
  obtain _ | _ | ⟨_, _, _, _, _, _, ⟨⟩⟩ := h <;> rfl

theorem CorrelatesFrom.results {s u : State} (h : CorrelatesFrom s u) :
    u.log.results = s.log.results := by
  obtain _ | _ | ⟨_, _, _, _, _, _, ⟨⟩⟩ := h <;> rfl

theorem CorrelatesFrom.pins {s u : State} (h : CorrelatesFrom s u) : u.pins = s.pins := by
  obtain _ | _ | ⟨_, _, _, _, _, _, ⟨⟩⟩ := h <;> rfl

/-- A correlation is one of an operation that starts, with the RSM as it was, or follows an attempt, after which
the RSM is at `R_IDLE`. -/
theorem CorrelatesFrom.rsm {s u : State} (h : CorrelatesFrom s u) :
    ((s.ctl = .idle ∨ s.ctl = .trWake) ∧ u.rsm = s.rsm) ∨ u.rsm.phase = .idle := by
  cases h with
  | request _ _ _ _ _ first => exact .inl ⟨.inl first.2, rfl⟩
  | transmit _ _ _ _ _ _ hctl => exact .inl ⟨.inr hctl, rfl⟩
  | missed o u last q es hctl handed => exact .inr (handed.rsm_idle :)

/-! ## Each part of the Core's step is a move -/

theorem coreMove_of_nextOrFinish {s u t : State} (origin : CorrelatesFrom s u)
    (h : nextOrFinish u = .next t) : CoreMove s t := by
  rcases nextOrFinish_next h with ⟨-, rfl⟩ | ⟨d, -, rfl⟩
  · exact .exhausted u origin
  · exact .attempt u d origin

theorem coreMove_of_attemptEnd {s u t : State} {o : RsmOutcome} (hctl : s.ctl = .rrAttempt)
    (handed : HandsOver s o u) (h : attemptEnd o u = .next t) : CoreMove s t := by
  have ho : o.Sound := by cases handed; assumption
  have hlast : u.corr.last = s.corr.last := by cases handed; rfl
  have hqueue : u.queue = s.queue := by cases handed; rfl
  rcases attemptEnd_next h with ⟨f, rfl, -, rfl⟩ | ⟨u', hnext, hcase⟩
  · exact .matched f u hctl handed
  refine coreMove_of_nextOrFinish ?_ hnext
  rcases hcase with ⟨rfl, rfl⟩ | ⟨f, rfl, rfl⟩ | ⟨f, rfl, rfl⟩ | ⟨f, rfl, rfl⟩
  · exact .missed _ u' _ _ _ hctl handed (.inl hlast) (.inl hqueue)
  · exact .missed _ u _ _ _ hctl handed (.inr ⟨f, rfl, ho.1⟩) (.inl hqueue)
  · exact .missed _ u _ _ _ hctl handed (.inr ⟨f, rfl, ho.1⟩) (.inr ⟨f, hqueue ▸ rfl, ho.1, ho.2.symm⟩)
  · exact .missed _ u _ _ _ hctl handed (.inl hlast) (.inr ⟨f, hqueue ▸ rfl, ho.1, ho.2.symm⟩)

theorem coreMove_of_deliver {s u t : State} {o : RsmOutcome} (handed : HandsOver s o u)
    (h : deliver o u = .next t) : CoreMove s t := by
  have hctl : u.ctl = s.ctl := by cases handed; rfl
  rcases deliver_next h with ⟨hrecv, rfl⟩ | ⟨hattempt, hend⟩
  · exact .received o u (hctl ▸ hrecv) handed
  · exact coreMove_of_attemptEnd (hctl ▸ hattempt) handed hend

theorem coreMove_of_byteStep {s t : State} {b : Byte} (counted : countedHead s = some b)
    (h : byteStep b (rxPop s) = .next t) : CoreMove s t := by
  rcases applyRsm_next h with ⟨silent, rfl⟩ | ⟨o, ho, hdeliver⟩
  · exact .byte b counted silent
  · exact coreMove_of_deliver (handsOver_of_rsmByte ho) hdeliver

theorem coreMove_of_timeout {s t : State} (h : applyRsm (rsmTimeout s.rsm) s = .next t) :
    CoreMove s t :=
  coreMove_of_deliver (handsOver_of_rsmTimeout s) h

theorem coreMove_of_receivePhaseStep {s t : State} (h : receivePhaseStep s = .next t) : CoreMove s t := by
  obtain ⟨-, ⟨b, counted, hbyte⟩ | ⟨-, -, -, htimeout⟩ | ⟨-, -, rfl⟩⟩ := receivePhaseStep_next h
  · exact coreMove_of_byteStep counted hbyte
  · exact coreMove_of_timeout htimeout
  · exact .wait

theorem coreMove_of_acceptStep {s : State} (free : s.host.busy = false) (hctl : s.ctl = .idle) :
    CoreMove s (acceptStep s) := by
  unfold acceptStep
  split
  · exact .wait
  · exact .accept _ _ free hctl ‹_›

section FirstStep
variable {s t : State} (first : s.AtFirstStep)
include first

theorem coreMove_raise {st : Status} (hst : st ≠ .invalidArgument) : CoreMove s (raise st s) :=
  .answer _ first (statusResult_sound hst)

theorem coreMove_of_execEncode {c : Byte} {p : List Byte} (h : execEncode c p s = .next t) :
    CoreMove s t := by
  unfold execEncode at h
  split at h <;> cases h
  · exact coreMove_raise first nofun
  · rename_i hfits
    rw [Bool.not_eq_true, payloadTooLarge_eq_false] at hfits
    exact .answer _ first (Result.sound_of_no_frame nofun (by rw [length_frame]; omega))

theorem coreMove_of_execCheck {d : List Byte} (h : execCheck d s = .next t) : CoreMove s t := by
  cases h
  exact .answer _ first (Result.sound_of_no_frame nofun (Nat.zero_le _))

theorem coreMove_of_execSend {c : Byte} {p : List Byte} (hop : decodeOp s.host.curOp = .ok (.send c p))
    (h : execSend c p s = .next t) : CoreMove s t := by
  unfold execSend at h
  split at h <;> cases h
  · exact coreMove_raise first nofun
  · exact .send c p first hop

theorem coreMove_of_execDequeue (h : execDequeue s = .next t) : CoreMove s t := by
  unfold execDequeue at h
  split at h <;> cases h
  · exact coreMove_raise first nofun
  · exact .dequeue _ first (Bool.not_eq_true _ ▸ ‹_›) (.inr rfl)

theorem coreMove_of_execReceive {tm : BitVec 32} {e : Option Byte} (h : execReceive tm e s = .next t) :
    CoreMove s t := by
  obtain ⟨d, -, rfl⟩ := startReceive_next h
  exact .receive d e first

theorem coreMove_of_execPollIndication {tm : BitVec 32} (h : execPollIndication tm s = .next t) :
    CoreMove s t := by
  unfold execPollIndication at h
  split at h
  · obtain ⟨d, -, rfl⟩ := startReceive_next h
    exact .poll d first
  · cases h
    exact .dequeue true first (Bool.not_eq_true _ ▸ ‹_›) (.inl rfl)

theorem coreMove_of_execTransaction {c : Byte} {p : List Byte} {tm : BitVec 32} {n : Option Byte} {m : Byte}
    {st : Bool} (hop : decodeOp s.host.curOp = .ok (.transaction c p tm n m st))
    (h : execTransaction c p tm n m st s = .next t) : CoreMove s t := by
  unfold execTransaction at h
  split at h
  · cases h
    exact coreMove_raise first nofun
  · split at h <;> cases h
    exact .wake _ c p tm n m st first hop (Bool.not_eq_true _ ▸ ‹_›)

theorem coreMove_of_execModuleReset (h : execModuleReset s = .next t) : CoreMove s t := by
  obtain ⟨u, -, rfl⟩ := moduleResetPhase_next h
  exact .resetLow u first

/-- The first step of an operation (R122): one case for each of the 11 host operations, since no CODE
instruction is decoded from the host port. -/
theorem coreMove_of_exec {i : Instr} (hop : decodeOp s.host.curOp = .ok i) (h : exec i s = .next t) :
    CoreMove s t := by
  have hhost := codeByte_of_decodeOp hop
  cases i with
  | encode c p => exact coreMove_of_execEncode first h
  | check d => exact coreMove_of_execCheck first h
  | send c p => exact coreMove_of_execSend first hop h
  | receive tm e => exact coreMove_of_execReceive first h
  | requestReply c tm n m st => exact coreMove_of_nextOrFinish (.request c tm n m st first) h
  | dequeue => exact coreMove_of_execDequeue first h
  | pollIndication tm => exact coreMove_of_execPollIndication first h
  | transaction c p tm n m st => exact coreMove_of_execTransaction first hop h
  | wakeup => cases h; exact .driveWake false first
  | sleep => cases h; exact .driveWake true first
  | moduleReset => exact coreMove_of_execModuleReset first h
  | _ => cases hhost

end FirstStep

theorem coreMove_of_idlePhaseStep {s t : State} (hctl : s.ctl = .idle) (h : idlePhaseStep s = .next t) :
    CoreMove s t := by
  rcases idlePhaseStep_next h with ⟨free, rfl⟩ | ⟨busy, i, hop, hexec⟩ | ⟨busy, e, -, -, rfl⟩
  · exact coreMove_of_acceptStep free hctl
  · exact coreMove_of_exec ⟨busy, hctl⟩ hop hexec
  · exact coreMove_raise ⟨busy, hctl⟩ nofun

theorem coreMove_of_transactionTransmit {s t : State} (hctl : s.ctl = .trWake) (due : s.twUntil ≤ s.env.now)
    (h : transactionTransmit s = .next t) : CoreMove s t := by
  obtain ⟨c, p, tm, n, m, st, hop, hnext⟩ := transactionTransmit_next h
  exact coreMove_of_nextOrFinish (.transmit c p tm n m st hctl due hop) hnext

/-- The Core's step is one of its moves. -/
theorem coreMove_of_coreStep {s t : State} (h : coreStep s = .next t) : CoreMove s t := by
  rcases coreStep_next h with ⟨hctl, hidle⟩ | ⟨-, hrecv⟩ | ⟨hctl, hwait⟩ | ⟨hctl, hwait⟩ | ⟨hctl, hwait⟩
  · exact coreMove_of_idlePhaseStep hctl hidle
  · exact coreMove_of_receivePhaseStep hrecv
  · rcases whenReached_next hwait with ⟨due, hgo⟩ | ⟨-, rfl⟩
    · exact coreMove_of_transactionTransmit hctl due hgo
    · exact .wait
  · rcases whenReached_next hwait with ⟨-, hgo⟩ | ⟨-, rfl⟩
    · obtain ⟨u, -, rfl⟩ := moduleResetPhase_next hgo
      exact .resetHigh u hctl
    · exact .wait
  · rcases whenReached_next hwait with ⟨-, hgo⟩ | ⟨-, rfl⟩
    · cases hgo
      exact .resetDone hctl
    · exact .wait

/-! ## The moves of all agents -/

/-- A step is a move of the Core in its turn, or another agent's turn (R6). -/
theorem step_moves {s t : State} (h : step s = .next t) :
    (coreTurn s ∧ ∃ more, CoreMove { s with env.agenda := more } t) ∨
    (∃ a more, s.env.agenda.head? = some a ∧ a ≠ .core ∧
      turnStep a { s with env.agenda := more } = .next t) := by
  obtain ⟨-, ⟨hnil, hcore⟩ | ⟨a, more, hcons, hturn⟩⟩ := step_next h
  · exact .inl ⟨.inl (by rw [hnil]; rfl), s.env.agenda, coreMove_of_coreStep hcore⟩
  · have hhead : s.env.agenda.head? = some a := by rw [hcons]; rfl
    by_cases hcore : a = .core
    · subst hcore
      exact .inl ⟨.inr hhead, more, coreMove_of_coreStep hturn⟩
    · exact .inr ⟨a, more, hhead, hcore, hturn⟩

/-- Another agent's turn changes the environment alone, or is the block reset (R6, R420). -/
theorem turnStep_env_or_reset {a : Turn} {s t : State} (hcore : a ≠ .core) (h : turnStep a s = .next t) :
    (∃ e, t = { s with env := e }) ∨ (a = .rst ∧ t = blockReset s) := by
  rcases turnStep_next h with ⟨rfl, -⟩ | ⟨op, -, -, rfl⟩ | ⟨b, u, -, -, -, rfl⟩ | ⟨-, rfl⟩ |
    ⟨n, -, -, -, -, rfl⟩ | hrst
  · exact absurd rfl hcore
  · exact .inl ⟨_, rfl⟩
  · exact .inl ⟨_, rfl⟩
  · refine .inl ⟨(txTakeTurn s).env, ?_⟩
    unfold txTakeTurn
    split <;> rfl
  · exact .inl ⟨_, rfl⟩
  · exact .inr hrst

/-- An invariant of the block, of which the environment is no part, is kept by every step when the Core's
moves and the block reset keep it. -/
theorem step_keeps {P : State → Prop} (henv : ∀ s e, P s → P { s with env := e })
    (hcore : ∀ s t, P s → CoreMove s t → P t) (hreset : ∀ s, P (blockReset s)) {s t : State} (hs : P s)
    (h : step s = .next t) : P t := by
  rcases step_moves h with ⟨-, more, hmove⟩ | ⟨a, more, -, hne, hturn⟩
  · exact hcore _ t (henv s _ hs) hmove
  · rcases turnStep_env_or_reset hne hturn with ⟨e, rfl⟩ | ⟨-, rfl⟩
    · exact henv s e hs
    · exact hreset _

end Machine
end Sys2Proof
end

section
/-! The registers of the RSM as their rules say (R41 to R47, R183 to R189): the running sum and the count are
kept byte by byte. -/

namespace Sys2Proof
namespace StateInvariants

open Machine Claims

theorem sum8_append (l m : List Byte) : sum8 (l ++ m) = sum8 l + sum8 m := by
  induction l with
  | nil => simp [sum8]
  | cons b l ih => rw [List.cons_append, sum8, sum8, ih, BitVec.add_assoc]

theorem sum8_concat (l : List Byte) (b : Byte) : sum8 (l ++ [b]) = sum8 l + b := by
  rw [sum8_append, sum8, sum8, BitVec.add_zero]

/-- At `R_IDLE` and in HUNT_SYNC no frame has begun, and any registers are sound. -/
theorem rsmSound_of_no_frame {r : Rsm} (h : r.phase = .idle ∨ r.phase = .huntSync) : r.Sound := by
  unfold Rsm.Sound
  rcases h with h | h <;> rw [h] <;> trivial

theorem huntSyncByte_sound (b : Byte) {r : Rsm} (hp : r.phase = .huntSync) : (huntSyncByte b r).rsm.Sound := by
  unfold huntSyncByte
  split
  · exact rfl
  · exact rsmSound_of_no_frame (.inr hp)

theorem huntCodeByte_sound (b : Byte) {r : Rsm} (hp : r.phase = .huntCode) (hsum : r.sum = Config.sync) :
    (huntCodeByte b r).rsm.Sound := by
  unfold huntCodeByte
  split_ifs with hsync hok
  · unfold Rsm.Sound
    rw [hp]
    exact hsum
  · refine ⟨hsync, hok, ?_⟩
    rw [hsum]
    exact (sum8_concat [Config.sync] b).symm
  · exact rsmSound_of_no_frame (.inr rfl)

theorem readLenByte_sound (b : Byte) {r : Rsm} (hsync : r.code ≠ Config.sync)
    (hok : codeOk r.code r.expected = true) (hsum : r.sum = sum8 [Config.sync, r.code]) :
    (readLenByte b r).rsm.Sound := by
  refine ⟨hsync, hok, Nat.zero_le _, ?_⟩
  change r.sum + b = sum8 ([Config.sync, r.code] ++ [b])
  rw [hsum, sum8_concat]

/-- A payload byte is the next byte of the body read so far (R188). -/
theorem bodySoFar_bodyByte (b : Byte) {r : Rsm} (hlt : r.count.toNat < r.len.toNat) :
    (bodyByte b r).bodySoFar = r.bodySoFar ++ [b] := by
  have hlen := r.len.isLt
  have hcount : (r.count + 1#9).toNat = r.count.toNat + 1 := by
    rw [BitVec.toNat_add, BitVec.toNat_ofNat]
    omega
  simp only [Rsm.bodySoFar, bodyByte, if_pos hlt, hcount]
  exact memRead_memWrite_succ _ _ _ (by omega)

theorem readBodyByte_sound (b : Byte) {r : Rsm} (hp : r.phase = .readBody) (hsync : r.code ≠ Config.sync)
    (hok : codeOk r.code r.expected = true) (hcount : r.count.toNat ≤ r.len.toNat)
    (hsum : r.sum = sum8 ([Config.sync, r.code, r.len] ++ r.bodySoFar)) :
    (readBodyByte b r).rsm.Sound := by
  unfold readBodyByte
  dsimp only
  split_ifs with hlast hzero
  · exact rsmSound_of_no_frame (.inl rfl)
  · exact rsmSound_of_no_frame (.inr rfl)
  · have hlt : r.count.toNat < r.len.toNat := by
      refine Nat.lt_of_le_of_ne hcount fun heq => hlast ?_
      have hcode : r.count = r.len.setWidth 9 :=
        BitVec.eq_of_toNat_eq (by rw [BitVec.toNat_setWidth, heq]; omega)
      exact congrArg (· + 1#9) hcode
    unfold Rsm.Sound
    rw [show (bodyByte b r).phase = .readBody from hp]
    refine ⟨hsync, hok, ?_, ?_⟩
    · change (r.count + 1#9).toNat ≤ r.len.toNat
      rw [BitVec.toNat_add, BitVec.toNat_ofNat]
      omega
    · rw [bodySoFar_bodyByte b hlt, ← List.append_assoc, sum8_concat]
      exact congrArg (· + b) hsum

theorem rsmByte_sound (b : Byte) {r : Rsm} (h : r.Sound) : (rsmByte b r).rsm.Sound := by
  cases hp : r.phase with
  | idle =>
    rw [rsmByte, hp]
    exact h
  | huntSync =>
    rw [rsmByte, hp]
    exact huntSyncByte_sound b hp
  | huntCode =>
    rw [Rsm.Sound, hp] at h
    rw [rsmByte, hp]
    exact huntCodeByte_sound b hp h
  | readLen =>
    rw [Rsm.Sound, hp] at h
    obtain ⟨hsync, hok, hsum⟩ := h
    rw [rsmByte, hp]
    exact readLenByte_sound b hsync hok hsum
  | readBody =>
    rw [Rsm.Sound, hp] at h
    obtain ⟨hsync, hok, hcount, hsum⟩ := h
    rw [rsmByte, hp]
    exact readBodyByte_sound b hp hsync hok hcount hsum

theorem coreMove_rsmSound {s t : State} (hs : s.rsm.Sound) (h : CoreMove s t) : t.rsm.Sound := by
  cases h
  case byte b counted silent => exact rsmByte_sound b hs
  case received o u hctl handed => exact rsmSound_of_no_frame (.inl (handed.rsm_idle :))
  case matched f u hctl handed =>
    exact rsmSound_of_no_frame (.inl (by simp [finishMatched, handed.rsm_idle]))
  case exhausted u origin =>
    rw [show (finishExhausted u).rsm = u.rsm by simp [finishExhausted]]
    rcases origin.rsm with ⟨-, hsame⟩ | hidle
    · exact hsame ▸ hs
    · exact rsmSound_of_no_frame (.inl hidle)
  case receive | poll | attempt => exact rsmSound_of_no_frame (.inr rfl)
  all_goals exact hs

/-- Settles O30: a counted byte keeps the registers sound, and every other move keeps, starts or ends the
receive. -/
theorem rsmSoundKept : Obligations.RsmSoundKept := by
  unfold Obligations.RsmSoundKept
  intro s t hs h
  exact step_keeps (P := fun s => s.rsm.Sound) (fun _ _ hs => hs) (fun _ _ => coreMove_rsmSound)
    (fun _ => rsmSound_of_no_frame (.inl rfl)) hs h

end StateInvariants
end Sys2Proof
end

section
/-! The controller, the pins and the RSM in step with each other (R55, R62, R195, R271, R280, R290), and the
faults that this excludes. -/

namespace Sys2Proof
namespace StateInvariants

open Machine Claims

/-! ## The controller (R55, R195) -/

/-- Outside the receive phases the RSM rests. -/
theorem rsm_idle_of_ctl {s : State} {ph : CtlPhase} (hs : s.ControlSound) (hctl : s.ctl = ph)
    (hph : ph.receiving = false) : s.rsm.phase = .idle := by
  obtain ⟨hrun, -⟩ := hs
  by_contra hphase
  have hrecv := hrun.2 hphase
  rw [hctl, hph] at hrecv
  cases hrecv

theorem busy_of_ctl {s : State} {ph : CtlPhase} (hs : s.ControlSound) (hctl : s.ctl = ph) (hph : ph ≠ .idle) :
    s.host.busy = true := by
  obtain ⟨-, hbusy, -⟩ := hs
  exact hbusy (hctl ▸ hph)

theorem controlSound_of_idle {t : State} (hctl : t.ctl = .idle) (hphase : t.rsm.phase = .idle) :
    t.ControlSound := by
  simp [State.ControlSound, CtlPhase.receiving, hctl, hphase]

theorem controlSound_of_receive {t : State} (hctl : t.ctl = .receive) (hphase : t.rsm.phase ≠ .idle)
    (hbusy : t.host.busy = true) : t.ControlSound := by
  simp [State.ControlSound, CtlPhase.receiving, hctl, hphase, hbusy]

theorem controlSound_of_attempt {t : State} (hctl : t.ctl = .rrAttempt) (hphase : t.rsm.phase ≠ .idle)
    (hbusy : t.host.busy = true) (hexp : t.rsm.expected = some (replyCode t.corr.cmd)) : t.ControlSound := by
  simp [State.ControlSound, CtlPhase.receiving, hctl, hphase, hbusy, hexp]

theorem controlSound_of_poll {t : State} (hctl : t.ctl = .pollReceive) (hphase : t.rsm.phase ≠ .idle)
    (hbusy : t.host.busy = true) (hexp : t.rsm.expected = none) : t.ControlSound := by
  simp [State.ControlSound, CtlPhase.receiving, hctl, hphase, hbusy, hexp]

theorem controlSound_of_wake {t : State} {c : Byte} {p : List Byte} {tm : BitVec 32} {n : Option Byte}
    {m : Byte} {st : Bool} (hctl : t.ctl = .trWake) (hphase : t.rsm.phase = .idle)
    (hbusy : t.host.busy = true) (hop : decodeOp t.host.curOp = .ok (.transaction c p tm n m st))
    (fits : payloadTooLarge p = false) : t.ControlSound := by
  simp [State.ControlSound, CtlPhase.receiving, hctl, hphase, hbusy, hop, fits]

theorem controlSound_of_moduleReset {t : State} (hctl : t.ctl = .mrLow ∨ t.ctl = .mrSettle)
    (hphase : t.rsm.phase = .idle) (hbusy : t.host.busy = true) : t.ControlSound := by
  rcases hctl with hctl | hctl <;> simp [State.ControlSound, CtlPhase.receiving, hctl, hphase, hbusy]

/-- A correlation goes on with the RSM at `R_IDLE`, so that its end leaves it there. -/
theorem correlatesFrom_rsm_idle {s u : State} (hs : s.ControlSound) (h : CorrelatesFrom s u) :
    u.rsm.phase = .idle := by
  rcases h.rsm with ⟨hctl, hsame⟩ | hidle
  · rw [hsame]
    rcases hctl with hctl | hctl <;> exact rsm_idle_of_ctl hs hctl rfl
  · exact hidle

theorem correlatesFrom_busy {s u : State} (hs : s.ControlSound) (h : CorrelatesFrom s u) :
    s.host.busy = true := by
  cases h with
  | request _ _ _ _ _ first => exact first.1
  | transmit _ _ _ _ _ _ hctl => exact busy_of_ctl hs hctl nofun
  | missed _ _ _ _ _ hctl => exact busy_of_ctl hs hctl nofun

/-- A byte that ends no receive leaves the controller and the running receive as they are. -/
theorem controlSound_of_silent_byte {s : State} (b : Byte) (hs : s.ControlSound)
    (silent : (rsmByte b s.rsm).outcome = none) :
    (record (rsmByte b s.rsm).events { rxPop s with rsm := (rsmByte b s.rsm).rsm }).ControlSound := by
  have hphase : (rsmByte b s.rsm).rsm.phase = .idle ↔ s.rsm.phase = .idle := by
    rcases rsmByte_outcome b s.rsm with ⟨-, hphase⟩ | ⟨-, -, -, -, hframe⟩
    · exact hphase
    · rw [silent] at hframe
      cases hframe
  obtain ⟨-, hexp⟩ := rsmByte_deadline b s.rsm
  obtain ⟨hrun, hbusy, hattempt, hpoll, hwake⟩ := hs
  exact ⟨hrun.trans (not_congr hphase.symm), hbusy, fun h => hexp.trans (hattempt h),
    fun h => hexp.trans (hpoll h), hwake⟩

theorem coreMove_controlSound {s t : State} (hs : s.ControlSound) (h : CoreMove s t) : t.ControlSound := by
  have hidle {ph} (hctl : s.ctl = ph) (hph : ph.receiving = false) : s.rsm.phase = .idle :=
    rsm_idle_of_ctl hs hctl hph
  have hbusy {ph} (hctl : s.ctl = ph) (hph : ph ≠ .idle) : s.host.busy = true := busy_of_ctl hs hctl hph
  cases h with
  | wait => exact hs
  | accept _ _ _ hctl => exact controlSound_of_idle hctl (hidle hctl rfl)
  | answer _ first | send _ _ first | dequeue _ first | driveWake _ first =>
    exact controlSound_of_idle first.2 (hidle first.2 rfl)
  | receive _ _ first => exact controlSound_of_receive rfl nofun first.1
  | poll _ first => exact controlSound_of_poll rfl nofun first.1 rfl
  | wake u c p tm n m st first hop fits =>
    exact controlSound_of_wake rfl (hidle first.2 rfl) first.1 hop fits
  | resetLow _ first => exact controlSound_of_moduleReset (.inl rfl) (hidle first.2 rfl) first.1
  | resetHigh _ hctl =>
    exact controlSound_of_moduleReset (.inr rfl) (hidle hctl rfl) (hbusy hctl (by decide))
  | resetDone hctl => exact controlSound_of_idle rfl (hidle hctl rfl)
  | byte b _ silent => exact controlSound_of_silent_byte b hs silent
  | received _ u _ handed => exact controlSound_of_idle rfl (handed.rsm_idle :)
  | matched _ u _ handed =>
    exact controlSound_of_idle rfl (by simp [finishMatched, handed.rsm_idle])
  | exhausted u origin =>
    exact controlSound_of_idle rfl (by simp [finishExhausted, correlatesFrom_rsm_idle hs origin])
  | attempt u d origin =>
    have hgo : u.host.busy = true := origin.host ▸ correlatesFrom_busy hs origin
    exact controlSound_of_attempt rfl nofun hgo rfl

/-- Settles O50, by cases on the Core's moves: each enters its phase with the RSM and the host port as that phase
needs them. -/
theorem controlSoundKept : Obligations.ControlSoundKept := by
  unfold Obligations.ControlSoundKept
  intro s t hs h
  exact step_keeps (P := State.ControlSound) (fun _ _ hs => hs) (fun _ _ => coreMove_controlSound)
    (fun _ => controlSound_of_idle rfl rfl) hs h

/-! ## The pins (R62, R271, R280, R290) -/

/-- The reset pin is high outside `CTL_MR_LOW`. -/
theorem resetN_of_ctl {s : State} {ph : CtlPhase} (hs : s.PinsSound) (hctl : s.ctl = ph) (hph : ph ≠ .mrLow) :
    s.pins.resetN = true := by
  obtain ⟨hreset, -⟩ := hs
  by_contra hlow
  exact hph (hctl ▸ hreset.1 (Bool.not_eq_true _ ▸ hlow))

/-- In the phases that need no module awake, the reset pin alone matters. -/
theorem pinsSound_of_reset_high {t : State} (hctl : t.ctl = .idle ∨ t.ctl = .receive ∨ t.ctl = .mrSettle)
    (hreset : t.pins.resetN = true) : t.PinsSound := by
  rcases hctl with hctl | hctl | hctl <;> simp [State.PinsSound, hctl, hreset]

/-- With the module awake, any phase but `CTL_MR_LOW` has its pins. -/
theorem pinsSound_of_awake {t : State} (hctl : t.ctl ≠ .mrLow) (hreset : t.pins.resetN = true)
    (hwake : t.pins.wakeN = false) : t.PinsSound := by
  simp [State.PinsSound, hctl, hreset, hwake]

theorem pinsSound_of_attempt {t : State} (hctl : t.ctl = .rrAttempt) (hreset : t.pins.resetN = true)
    (hwake : t.corr.ctx = true → t.pins.wakeN = false) : t.PinsSound := by
  simpa [State.PinsSound, hctl, hreset] using hwake

/-- A correlation goes on with the reset pin high, and in a TRANSACTION with the module awake (R271). -/
theorem correlatesFrom_pins {s u : State} (hs : s.PinsSound) (h : CorrelatesFrom s u) :
    u.pins.resetN = true ∧ (u.corr.ctx = true → u.pins.wakeN = false) := by
  rw [h.pins]
  cases h with
  | request _ _ _ _ _ first => exact ⟨resetN_of_ctl hs first.2 nofun, nofun⟩
  | transmit _ _ _ _ _ _ hctl =>
    have ⟨_, hwake, _⟩ := hs
    exact ⟨resetN_of_ctl hs hctl nofun, fun _ => hwake hctl⟩
  | missed _ _ _ _ _ hctl handed =>
    have ⟨_, _, hattempt, _⟩ := hs
    cases handed
    exact ⟨resetN_of_ctl hs hctl nofun, hattempt hctl⟩

theorem coreMove_pinsSound {s t : State} (hs : s.PinsSound) (h : CoreMove s t) : t.PinsSound := by
  have hhigh {ph} (hctl : s.ctl = ph) (hph : ph ≠ .mrLow) : s.pins.resetN = true :=
    resetN_of_ctl hs hctl hph
  cases h with
  | wait | accept | byte => exact hs
  | answer _ first | send _ _ first | dequeue _ first | driveWake _ first =>
    exact pinsSound_of_reset_high (.inl first.2) (hhigh first.2 nofun)
  | receive _ _ first => exact pinsSound_of_reset_high (.inr (.inl rfl)) (hhigh first.2 nofun)
  | poll _ first => exact pinsSound_of_awake nofun (hhigh first.2 nofun) rfl
  | wake _ _ _ _ _ _ _ first => exact pinsSound_of_awake nofun (hhigh first.2 nofun) rfl
  | resetLow => exact ⟨⟨fun _ => rfl, fun _ => rfl⟩, nofun, nofun, nofun⟩
  | resetHigh => exact pinsSound_of_reset_high (.inr (.inr rfl)) rfl
  | resetDone hctl => exact pinsSound_of_reset_high (.inl rfl) (hhigh hctl (by decide))
  | received _ _ hctl handed =>
    have hout : s.pins.resetN = true := by rcases hctl with hctl | hctl <;> exact hhigh hctl nofun
    cases handed
    exact pinsSound_of_reset_high (.inl rfl) hout
  | matched _ _ hctl handed =>
    have hout := hhigh hctl nofun
    cases handed
    exact pinsSound_of_reset_high (.inl rfl) (by simp [finishMatched, hout])
  | exhausted u origin =>
    obtain ⟨hout, -⟩ := correlatesFrom_pins hs origin
    exact pinsSound_of_reset_high (.inl rfl) (by simp [finishExhausted, hout])
  | attempt u d origin =>
    obtain ⟨hout, hwake⟩ := correlatesFrom_pins hs origin
    exact pinsSound_of_attempt rfl hout hwake

/-- Settles O49, by cases on the Core's moves: each enters its phase with the pins as that phase needs them. -/
theorem pinsSoundKept : Obligations.PinsSoundKept := by
  unfold Obligations.PinsSoundKept
  intro s t hs h
  exact step_keeps (P := State.PinsSound) (fun _ _ hs => hs) (fun _ _ => coreMove_pinsSound)
    (fun _ => pinsSound_of_reset_high (.inl rfl) rfl) hs h

/-! ## No fault (R71, R195) -/

theorem deliver_ne_fault {o : RsmOutcome} {s : State} (h : s.ctl.receiving = true) (f : Fault) :
    deliver o s ≠ .fault f := by
  unfold deliver
  cases hctl : s.ctl with
  | receive | pollReceive => exact nofun
  | rrAttempt => exact attemptEnd_ne_fault o s f
  | idle | trWake | mrLow | mrSettle => rw [hctl] at h; cases h

theorem applyRsm_ne_fault (st : RsmStep) {s : State} (h : s.ctl.receiving = true) (f : Fault) :
    applyRsm st s ≠ .fault f := by
  unfold applyRsm
  split
  · exact nofun
  · refine deliver_ne_fault ?_ f
    exact h

theorem receivePhaseStep_ne_fault {s : State} (h : s.ctl.receiving = true) (hrun : s.rsm.phase ≠ .idle)
    (f : Fault) : receivePhaseStep s ≠ .fault f := by
  unfold receivePhaseStep
  rw [if_neg hrun]
  split
  · rw [receiveByte_eq]
    refine applyRsm_ne_fault _ ?_ f
    exact h
  · unfold receiveWait timeoutStep
    split_ifs
    · exact applyRsm_ne_fault _ h f
    · exact nofun
    · exact nofun

theorem moduleResetPhase_ne_fault (v : Bool) (w : Time) (ph : CtlPhase) (s : State) (f : Fault) :
    moduleResetPhase v w ph s ≠ .fault f := by
  unfold moduleResetPhase
  split <;> exact nofun

/-- A host operation never faults: the only faults are of deliveries and of waits (log entry 18). -/
theorem exec_ne_fault {i : Instr} (hhost : i.codeByte = none) (s : State) (f : Fault) :
    exec i s ≠ .fault f := by
  cases i with
  | encode c p => show execEncode c p s ≠ _; unfold execEncode; split <;> exact nofun
  | check d => exact nofun
  | send c p => show execSend c p s ≠ _; unfold execSend; split <;> exact nofun
  | receive tm e => exact startReceive_ne_fault _ _ _ _ f
  | requestReply c tm n m st => exact nextOrFinish_ne_fault _ f
  | dequeue => show execDequeue s ≠ _; unfold execDequeue; split <;> exact nofun
  | pollIndication tm =>
    show execPollIndication tm s ≠ _
    unfold execPollIndication
    split
    · exact startReceive_ne_fault _ _ _ _ f
    · exact nofun
  | transaction c p tm n m st =>
    show execTransaction c p tm n m st s ≠ _
    unfold execTransaction
    split
    · exact nofun
    · split <;> exact nofun
  | wakeup => exact nofun
  | sleep => exact nofun
  | moduleReset => exact moduleResetPhase_ne_fault _ _ _ _ f
  | _ => cases hhost

theorem idlePhaseStep_ne_fault (s : State) (f : Fault) : idlePhaseStep s ≠ .fault f := by
  unfold idlePhaseStep runOp illegalStep
  split
  · split
    · exact exec_ne_fault (codeByte_of_decodeOp ‹_›) s f
    · split <;> exact nofun
  · exact nofun

theorem whenReached_ne_fault {u : Time} {go : State → Host.Outcome State Fault Refusal} {s : State} {f : Fault}
    (h : go s ≠ .fault f) : whenReached u go s ≠ .fault f := by
  unfold whenReached
  split
  · exact h
  · exact nofun

theorem transactionTransmit_ne_fault {s : State} {c : Byte} {p : List Byte} {tm : BitVec 32} {n : Option Byte}
    {m : Byte} {st : Bool} (hop : decodeOp s.host.curOp = .ok (.transaction c p tm n m st)) (f : Fault) :
    transactionTransmit s ≠ .fault f := by
  unfold transactionTransmit
  rw [hop]
  exact nextOrFinish_ne_fault _ f

theorem coreStep_ne_fault {s : State} (hs : s.ControlSound) (f : Fault) : coreStep s ≠ .fault f := by
  obtain ⟨hrun, -, -, -, hwake⟩ := hs
  unfold coreStep
  cases hctl : s.ctl with
  | idle => exact idlePhaseStep_ne_fault s f
  | receive | rrAttempt | pollReceive =>
    have hrecv : s.ctl.receiving = true := by rw [hctl]; rfl
    exact receivePhaseStep_ne_fault hrecv (hrun.1 hrecv) f
  | trWake =>
    obtain ⟨_, _, _, _, _, _, hop, -⟩ := hwake hctl
    exact whenReached_ne_fault (transactionTransmit_ne_fault hop f)
  | mrLow => exact whenReached_ne_fault (moduleResetPhase_ne_fault _ _ _ _ f)
  | mrSettle => exact whenReached_ne_fault nofun

theorem turnStep_ne_fault {a : Turn} {s : State} (hs : s.ControlSound) (f : Fault) :
    turnStep a s ≠ .fault f := by
  cases a with
  | core => exact coreStep_ne_fault hs f
  | host op => show hostTurn op s ≠ _; unfold hostTurn; split <;> exact nofun
  | rx b u => show rxTurn b u s ≠ _; unfold rxTurn; split <;> exact nofun
  | txTake => exact nofun
  | time n => show timeTurn n s ≠ _; unfold timeTurn; split_ifs <;> exact nofun
  | rst => exact nofun

/-- Settles O51: a sound controller excludes the three states that fault. -/
theorem coreNeverFaults : Obligations.CoreNeverFaults := by
  unfold Obligations.CoreNeverFaults
  intro s f hs
  unfold step
  split
  · split
    · exact coreStep_ne_fault hs f
    · refine turnStep_ne_fault ?_ f
      exact hs
  · exact nofun

end StateInvariants
end Sys2Proof
end

section
/-! The streams and the time base (R66 to R68, R85 to R87): what a step appends to them and takes off them. -/

namespace Sys2Proof
namespace StateInvariants

open Machine Claims

/-! ## The RX stream and time (R66, R67, R85) -/

/-- The Core's effect on what it only reads or consumes: `now` and the bytes the Transport has taken stay, and
bytes leave the RX stream at its head. -/
def Consumes (e e' : Env) : Prop :=
  e'.now = e.now ∧ e'.lastArrival = e.lastArrival ∧ e'.txTaken = e.txTaken ∧ e'.rx <:+ e.rx

theorem Consumes.refl (e : Env) : Consumes e e := ⟨rfl, rfl, rfl, List.suffix_refl _⟩

theorem handsOver_consumes {s u : State} {o : RsmOutcome} (h : HandsOver s o u) : Consumes s.env u.env := by
  cases h
  exact ⟨rfl, rfl, rfl, ‹_›⟩

theorem correlatesFrom_consumes {s u : State} (h : CorrelatesFrom s u) : Consumes s.env u.env := by
  cases h with
  | request | transmit => exact ⟨rfl, rfl, rfl, List.suffix_refl _⟩
  | missed _ _ _ _ _ _ handed => exact (handsOver_consumes handed :)

theorem coreMove_consumes {s t : State} (h : CoreMove s t) : Consumes s.env t.env := by
  cases h
  case byte => exact ⟨rfl, rfl, rfl, List.tail_suffix _⟩
  case received _ u _ handed => exact (handsOver_consumes handed :)
  case matched _ u _ handed => simpa [finishMatched] using handsOver_consumes handed
  case exhausted u origin => simpa [finishExhausted] using correlatesFrom_consumes origin
  case attempt u d origin => exact (correlatesFrom_consumes origin :)
  all_goals exact ⟨rfl, rfl, rfl, List.suffix_refl _⟩

/-- Bytes that leave the RX stream at its head leave the others in order. -/
theorem envSound_of_consumes {e e' : Env} (hs : e.Sound) (h : Consumes e e') : e'.Sound := by
  obtain ⟨hsorted, hlast, hnow⟩ := hs
  obtain ⟨hnow', hlast', -, hrx⟩ := h
  refine ⟨hsorted.sublist (hrx.sublist.map _), fun x hx => ?_, ?_⟩
  · rw [hlast']
    exact hlast x (hrx.subset hx)
  · rw [hlast', hnow']
    exact hnow

/-- A byte is appended with an arrival time at or after the last one (R67). -/
theorem envSound_of_arrival {e : Env} {b : Byte} {u : Time} (hs : e.Sound) (hlate : e.lastArrival ≤ u)
    (hnow : u ≤ e.now) : ({ e with rx := e.rx ++ [(b, u)], lastArrival := u } : Env).Sound := by
  obtain ⟨hsorted, hlast, -⟩ := hs
  have hbefore : ∀ x ∈ e.rx, x.2 ≤ u := fun x hx => BitVec.le_trans (hlast x hx) hlate
  refine ⟨?_, ?_, hnow⟩
  · rw [List.map_append, List.pairwise_append]
    refine ⟨hsorted, List.pairwise_singleton _ _, ?_⟩
    simpa using fun a _ hx => hbefore _ hx
  · intro x hx
    rcases List.mem_append.1 hx with hx | hx
    · exact hbefore x hx
    · rw [List.mem_singleton.1 hx]
      exact BitVec.le_refl u

/-- `now` is set forward (R66). -/
theorem envSound_of_time {e : Env} {u : Time} (hs : e.Sound) (h : e.now ≤ u) :
    ({ e with now := u } : Env).Sound := by
  obtain ⟨hsorted, hlast, hnow⟩ := hs
  exact ⟨hsorted, hlast, BitVec.le_trans hnow h⟩

/-- The statement of R66 and R67 about the environment before and after a step, in which the turn of `agenda`
is taken. -/
def StreamsAdvance (agenda : List Turn) (e e' : Env) : Prop :=
  e'.Sound ∧ e.now ≤ e'.now ∧ e.lastArrival ≤ e'.lastArrival ∧
    (e'.now = e.now ∨ ∃ n, agenda.head? = some (.time n) ∧ e'.now.toNat = n)

theorem streamsAdvance_of_consumes {e e' : Env} (agenda : List Turn) (hs : e.Sound) (h : Consumes e e') :
    StreamsAdvance agenda e e' := by
  refine ⟨envSound_of_consumes hs h, ?_⟩
  obtain ⟨hnow, hlast, -, -⟩ := h
  exact ⟨BitVec.le_of_eq hnow.symm, BitVec.le_of_eq hlast.symm, .inl hnow⟩

theorem txTakeTurn_env (s : State) :
    (s.env.tx = [] ∧ (txTakeTurn s).env = s.env) ∨
    ∃ b rest, s.env.tx = b :: rest ∧
      (txTakeTurn s).env = { s.env with tx := rest, txTaken := s.env.txTaken ++ [b] } := by
  unfold txTakeTurn
  split
  · exact .inl ⟨‹_›, rfl⟩
  · exact .inr ⟨_, _, ‹_›, rfl⟩

/-- Settles O52, by the agent whose turn it is: the Core consumes, the Transport appends in order, and Time
moves `now` forward. -/
theorem streamsStayOrdered : Obligations.StreamsStayOrdered := by
  unfold Obligations.StreamsStayOrdered
  intro s t hs h
  change StreamsAdvance s.env.agenda s.env t.env
  have hstay : StreamsAdvance s.env.agenda s.env s.env :=
    streamsAdvance_of_consumes _ hs (Consumes.refl _)
  rcases step_moves h with ⟨-, more, hmove⟩ | ⟨a, more, hhead, hne, hturn⟩
  · exact streamsAdvance_of_consumes _ hs (coreMove_consumes hmove :)
  rcases turnStep_next hturn with ⟨rfl, -⟩ | ⟨op, -, -, rfl⟩ | ⟨b, u, rfl, hlate, hnow, rfl⟩ | ⟨rfl, rfl⟩ |
    ⟨n, rfl, hlt, hle, -, rfl⟩ | ⟨rfl, rfl⟩
  · exact absurd rfl hne
  · exact hstay
  · exact ⟨envSound_of_arrival hs hlate hnow, BitVec.le_refl _, hlate, .inl rfl⟩
  · rcases txTakeTurn_env { s with env.agenda := more } with ⟨-, htx⟩ | ⟨b, rest, -, htx⟩ <;> rw [htx] <;>
      exact hstay
  · have hval : (BitVec.ofNat 64 n).toNat = n := by rw [BitVec.toNat_ofNat, Nat.mod_eq_of_lt hlt]
    have hfwd : s.env.now ≤ BitVec.ofNat 64 n := by rw [BitVec.le_def, hval]; exact hle
    exact ⟨envSound_of_time hs hfwd, hfwd, BitVec.le_refl _, .inr ⟨n, hhead, hval⟩⟩
  · exact hstay

/-! ## The TX stream (R68, R87) -/

/-- The Core writes this frame: SEND runs, or TRANSACTION ends its wait (R87, R90, R91). -/
def Transmits (s : State) (c : Byte) (p : List Byte) : Prop :=
  (s.AtFirstStep ∧ decodeOp s.host.curOp = .ok (.send c p)) ∨
    (s.ctl = .trWake ∧ s.twUntil ≤ s.env.now ∧
      ∃ tm n m st, decodeOp s.host.curOp = .ok (.transaction c p tm n m st))

theorem handsOver_tx {s u : State} {o : RsmOutcome} (h : HandsOver s o u) : u.env.tx = s.env.tx := by
  cases h
  rfl

theorem correlatesFrom_tx {s u : State} (h : CorrelatesFrom s u) :
    u.env.tx = s.env.tx ∨ ∃ c p, u.env.tx = s.env.tx ++ frame c p ∧ Transmits s c p := by
  cases h with
  | request => exact .inl rfl
  | transmit c p tm n m st hctl due hop => exact .inr ⟨c, p, rfl, .inr ⟨hctl, due, tm, n, m, st, hop⟩⟩
  | missed _ _ _ _ _ _ handed => exact .inl (handsOver_tx handed :)

theorem coreMove_tx {s t : State} (h : CoreMove s t) :
    t.env.tx = s.env.tx ∨ ∃ c p, t.env.tx = s.env.tx ++ frame c p ∧ Transmits s c p := by
  cases h
  case send c p first hop => exact .inr ⟨c, p, rfl, .inl ⟨first, hop⟩⟩
  case received _ u _ handed => exact .inl (handsOver_tx handed :)
  case matched _ u _ handed => exact .inl (by simp [finishMatched, handsOver_tx handed])
  case exhausted u origin => simpa [finishExhausted] using correlatesFrom_tx origin
  case attempt u d origin => exact (correlatesFrom_tx origin :)
  all_goals exact .inl rfl

/-- Of the other agents only the Transport takes bytes, the oldest one (R68). -/
theorem turnStep_tx {a : Turn} {s t : State} (hne : a ≠ .core) (h : turnStep a s = .next t) :
    (t.env.txTaken = s.env.txTaken ∧ t.env.tx = s.env.tx) ∨
    (a = .txTake ∧ ∃ b, t.env.txTaken = s.env.txTaken ++ [b] ∧ s.env.tx = b :: t.env.tx) := by
  rcases turnStep_next h with ⟨rfl, -⟩ | ⟨op, -, -, rfl⟩ | ⟨b, u, -, -, -, rfl⟩ | ⟨rfl, rfl⟩ |
    ⟨n, -, -, -, -, rfl⟩ | ⟨-, rfl⟩
  · exact absurd rfl hne
  · exact .inl ⟨rfl, rfl⟩
  · exact .inl ⟨rfl, rfl⟩
  · rcases txTakeTurn_env s with ⟨-, henv⟩ | ⟨b, rest, hcons, henv⟩ <;> rw [henv]
    · exact .inl ⟨rfl, rfl⟩
    · exact .inr ⟨rfl, b, rfl, hcons⟩
  · exact .inl ⟨rfl, rfl⟩
  · exact .inl ⟨rfl, rfl⟩

/-- Settles O54: the Core appends a frame or nothing, and the Transport's turn moves one byte from the stream to
those taken. -/
theorem txGrowsByWholeFrames : Obligations.TxGrowsByWholeFrames := by
  unfold Obligations.TxGrowsByWholeFrames
  intro s t h
  rcases step_moves h with ⟨hturn, more, hmove⟩ | ⟨a, more, hhead, hne, hturn⟩
  · obtain ⟨-, -, htaken, -⟩ := coreMove_consumes hmove
    refine ⟨⟨[], by rw [htaken, List.append_nil]⟩, .inl htaken, ?_⟩
    rcases coreMove_tx hmove with htx | ⟨c, p, htx, ⟨first, hop⟩ | ⟨hctl, due, hop⟩⟩
    · exact .inl (by rw [htaken, htx])
    · exact .inr ⟨c, p, htx, htaken, .inl ⟨⟨hturn, first⟩, hop⟩⟩
    · exact .inr ⟨c, p, htx, htaken, .inr ⟨hturn, hctl, due, hop⟩⟩
  · rcases turnStep_tx hne hturn with ⟨htaken, htx⟩ | ⟨rfl, b, htaken, hcons⟩
    · exact ⟨⟨[], by rw [htaken, List.append_nil]⟩, .inl htaken, .inl (by rw [htaken, htx])⟩
    · have hall : t.env.txTaken ++ t.env.tx = s.env.txTaken ++ s.env.tx := by
        rw [htaken, List.append_assoc]
        exact congrArg (s.env.txTaken ++ ·) hcons.symm
      exact ⟨⟨[b], htaken.symm⟩, .inr hhead, .inl hall⟩

end StateInvariants
end Sys2Proof
end

section
/-! The ring buffer of the Indication Queue (R52, R53, R231, R236): its entries in FIFO order after a push and
after a pop, and its soundness under both. -/

namespace Sys2Proof
namespace Machine

theorem Queue.count_lt_of_not_full {q : Queue} (hcap : q.count.toNat ≤ Config.queueCap) (h : q.isFull = false) :
    q.count.toNat < 32 := by
  have hne : q.count ≠ 32#6 := by simpa [Queue.isFull, Config.queueCap] using h
  refine Nat.lt_of_le_of_ne hcap fun heq => hne (BitVec.eq_of_toNat_eq heq)

theorem Queue.count_pos_of_not_empty {q : Queue} (h : q.isEmpty = false) : 0 < q.count.toNat := by
  have hne : q.count ≠ 0#6 := by simpa [Queue.isEmpty] using h
  exact Nat.pos_of_ne_zero fun heq => hne (BitVec.eq_of_toNat_eq heq)

theorem Queue.count_push {q : Queue} (f : DecodedFrame) (hlt : q.count.toNat < 32) (h : q.isFull = false) :
    (q.push f).count.toNat = q.count.toNat + 1 := by
  simp only [Queue.push, h, Bool.false_eq_true, if_false, BitVec.toNat_add, BitVec.toNat_ofNat]
  omega

theorem Queue.count_pop {q : Queue} (h : 0 < q.count.toNat) : q.pop.count.toNat + 1 = q.count.toNat := by
  have hlt := q.count.isLt
  simp only [Queue.pop, BitVec.toNat_sub, BitVec.toNat_ofNat]
  omega

/-- The slots of the first 32 places in the ring differ. -/
theorem Queue.slot_ne {q : Queue} {i j : Nat} (hij : i < j) (hj : j < 32) :
    (q.slot j).val ≠ (q.slot i).val := by
  simp only [Queue.slot, Fin.val_ofNat]
  omega

/-- A pop moves every place one nearer to the head (R236). -/
theorem Queue.slot_pop (q : Queue) (k : Nat) : q.pop.slot k = q.slot (k + 1) := by
  apply Fin.ext
  simp only [Queue.slot, Queue.pop, Fin.val_ofNat, BitVec.toNat_add, BitVec.toNat_ofNat]
  omega

/-- ENQUEUE on a queue that is not full appends at the young end (R231). -/
theorem Queue.frames_push {q : Queue} (f : DecodedFrame) (hcap : q.count.toNat ≤ Config.queueCap)
    (h : q.isFull = false) : (q.push f).frames = q.frames ++ [f] := by
  have hlt := Queue.count_lt_of_not_full hcap h
  have hentry : (q.push f).entry = q.entry.set (q.slot q.count.toNat) f := by simp [Queue.push, h]
  have hslot (k) : (q.push f).slot k = q.slot k := by simp [Queue.slot, Queue.push, h]
  rw [Queue.frames, Queue.count_push f hlt h, List.range_succ, List.map_append]
  congr 1
  · refine List.map_congr_left fun k hk => ?_
    simp only [hentry, hslot, Fin.getElem_fin]
    exact Vector.getElem_set_ne _ _ (Queue.slot_ne (List.mem_range.1 hk) hlt)
  · simp [hentry, hslot]

/-- The pop takes the oldest entry and leaves the others in order (R236). -/
theorem Queue.frames_eq_oldest_cons {q : Queue} (h : q.isEmpty = false) :
    q.frames = q.oldest :: q.pop.frames := by
  rw [Queue.frames, ← Queue.count_pop (Queue.count_pos_of_not_empty h), List.range_succ_eq_map, List.map_cons,
    List.map_map]
  refine congrArg (q.oldest :: ·) (List.map_congr_left fun k _ => ?_)
  simp only [Function.comp_apply, Nat.succ_eq_add_one, ← Queue.slot_pop]
  rfl

theorem Queue.sound_push {q : Queue} {f : DecodedFrame} (hs : q.Sound) (hwf : f.wf = true)
    (hind : isIndication f.code = true) : (q.push f).Sound := by
  have ⟨hcap, hframes⟩ := hs
  cases h : q.isFull with
  | true => rwa [Queue.push, if_pos h]
  | false =>
    have hlt := Queue.count_lt_of_not_full hcap h
    refine ⟨by rw [Queue.count_push f hlt h]; exact hlt, fun g hg => ?_⟩
    rw [Queue.frames_push f hcap h, List.mem_append, List.mem_singleton] at hg
    rcases hg with hg | rfl
    · exact hframes g hg
    · exact ⟨hwf, hind⟩

theorem Queue.sound_pop {q : Queue} (hs : q.Sound) (h : q.isEmpty = false) : q.pop.Sound := by
  obtain ⟨hcap, hframes⟩ := hs
  have hcount := Queue.count_pop (Queue.count_pos_of_not_empty h)
  refine ⟨by omega, fun g hg => hframes g ?_⟩
  rw [Queue.frames_eq_oldest_cons h]
  exact List.mem_cons_of_mem _ hg

theorem Queue.oldest_sound {q : Queue} (hs : q.Sound) (h : q.isEmpty = false) :
    q.oldest.wf = true ∧ isIndication q.oldest.code = true := by
  obtain ⟨-, hframes⟩ := hs
  refine hframes _ ?_
  rw [Queue.frames_eq_oldest_cons h]
  exact List.mem_cons_self

end Machine
end Sys2Proof
end

section
/-! The result register, the queue and the last frame observed hold sound frames, and the result register is
written at the end of an operation (R31, R32, R40, R53, R233, R370). -/

namespace Sys2Proof
namespace StateInvariants

open Machine Claims

/-! ## Sound frames (R32, R40, R53, R370) -/

theorem corrSound_of_none {c : Corr} (h : c.last = none) : c.Sound := by
  intro f hf
  rw [h] at hf
  cases hf

/-- An exhausted correlation returns the last frame observed, or its status alone (R262, R263). -/
theorem exhaustedResult_sound {c : Corr} (hs : c.Sound) : (exhaustedResult c).Sound := by
  unfold exhaustedResult
  split
  · exact statusResult_sound (by decide)
  · split
    · exact frameResult_sound false (hs _ ‹_›) rfl
    · exact statusResult_sound (by decide)

theorem correlatesFrom_framesSound {s u : State} (hs : s.FramesSound) (h : CorrelatesFrom s u) :
    u.FramesSound := by
  obtain ⟨hresult, hqueue, hcorr⟩ := hs
  cases h with
  | request | transmit => exact ⟨hresult, hqueue, corrSound_of_none rfl⟩
  | missed o u last q es hctl handed observed enqueued =>
    cases handed
    refine ⟨hresult, ?_, fun f hf => ?_⟩
    · rcases enqueued with rfl | ⟨f, rfl, hwf, hind⟩
      · exact hqueue
      · exact Queue.sound_push hqueue hwf hind
    · rcases observed with rfl | ⟨g, rfl, hwf⟩
      · exact hcorr f hf
      · cases hf
        exact hwf

theorem coreMove_framesSound {s t : State} (hs : s.FramesSound) (h : CoreMove s t) : t.FramesSound := by
  have ⟨hresult, hqueue, hcorr⟩ := hs
  cases h with
  | answer r _ hr => exact ⟨hr, hqueue, hcorr⟩
  | send | driveWake | resetDone => exact ⟨statusResult_sound (by decide), hqueue, hcorr⟩
  | dequeue ind _ nonempty flagged =>
    obtain ⟨hwf, hind⟩ := Queue.oldest_sound hqueue nonempty
    have hflag : ind = isIndication s.queue.oldest.code := flagged.elim (·.trans hind.symm) id
    exact ⟨frameResult_sound false hwf hflag, Queue.sound_pop hqueue nonempty, hcorr⟩
  | received o u _ handed =>
    cases handed with
    | intro _ _ _ _ sound => exact ⟨receiveResult_sound sound, hqueue, hcorr⟩
  | matched f u _ handed =>
    cases handed with
    | intro _ _ _ _ sound =>
      have hr := frameResult_sound true sound.1 sound.2
      simpa [State.FramesSound, finishMatched] using And.intro hr (And.intro hqueue hcorr)
  | exhausted u origin =>
    obtain ⟨-, hqueue', hcorr'⟩ := correlatesFrom_framesSound hs origin
    have hr := exhaustedResult_sound hcorr'
    simpa [State.FramesSound, finishExhausted] using And.intro hr (And.intro hqueue' hcorr')
  | attempt u d origin => exact (correlatesFrom_framesSound hs origin :)
  | _ => exact hs

theorem result_empty_sound : Result.empty.Sound := statusResult_sound (st := .ok) nofun

theorem queue_reset_sound : Queue.reset.Sound := ⟨Nat.zero_le _, fun _ hf => nomatch hf⟩

/-- Settles O56, by cases on the Core's moves. -/
theorem framesSoundKept : Obligations.FramesSoundKept := by
  unfold Obligations.FramesSoundKept
  intro s t hs h
  exact step_keeps (P := State.FramesSound) (fun _ _ hs => hs) (fun _ _ => coreMove_framesSound)
    (fun _ => ⟨result_empty_sound, queue_reset_sound, corrSound_of_none rfl⟩) hs h

/-! ## The result register is written at the end (R31) -/

/-- The operation in progress ends, with its result. -/
def EndsWithResult (s t : State) : Prop :=
  s.host.busy = true ∧ t.host.busy = false ∧ t.host.resultValid = true ∧
    t.log.results = s.log.results ++ [t.host.result]

/-- The result register is left alone, and an operation in progress goes on. -/
def LeavesResult (s t : State) : Prop :=
  t.host.result = s.host.result ∧ t.host.resultValid = s.host.resultValid ∧
    t.log.results = s.log.results ∧ (s.host.busy = true → t.host.busy = true)

theorem leavesResult_of_same {s t : State} (hhost : t.host = s.host) (hlog : t.log.results = s.log.results) :
    LeavesResult s t := by
  rw [LeavesResult, hhost]
  exact ⟨rfl, rfl, hlog, id⟩

theorem endsWithResult_endCorrelation {s u : State} (r : Result) (hbusy : s.host.busy = true)
    (hlog : u.log.results = s.log.results) : EndsWithResult s (endCorrelation (writeResult r u)) := by
  simp [EndsWithResult, hbusy, hlog]

theorem coreMove_result {s t : State} (hs : s.ControlSound) (h : CoreMove s t) :
    EndsWithResult s t ∨ LeavesResult s t := by
  cases h with
  | accept => exact .inr ⟨rfl, rfl, rfl, fun _ => rfl⟩
  | answer _ first | send _ _ first | dequeue _ first | driveWake _ first =>
    exact .inl ⟨first.1, rfl, rfl, rfl⟩
  | resetDone hctl => exact .inl ⟨busy_of_ctl hs hctl nofun, rfl, rfl, rfl⟩
  | received _ _ hctl handed =>
    have hbusy : s.host.busy = true := by rcases hctl with hctl | hctl <;> exact busy_of_ctl hs hctl nofun
    cases handed
    exact .inl ⟨hbusy, rfl, rfl, rfl⟩
  | matched _ _ hctl handed =>
    have hbusy := busy_of_ctl hs hctl nofun
    cases handed
    exact .inl (endsWithResult_endCorrelation _ hbusy rfl)
  | exhausted u origin =>
    exact .inl (endsWithResult_endCorrelation _ (correlatesFrom_busy hs origin) origin.results)
  | attempt u d origin => exact .inr (leavesResult_of_same origin.host origin.results)
  | _ => exact .inr (leavesResult_of_same rfl rfl)

/-- Settles O55: of the Core's moves, those that end an operation write the result, and the other agents leave
the host port alone. -/
theorem resultWrittenOnceAtTheEnd : Obligations.ResultWrittenOnceAtTheEnd := by
  unfold Obligations.ResultWrittenOnceAtTheEnd
  intro s t hs hrst h
  rcases step_moves h with ⟨-, more, hmove⟩ | ⟨a, more, hhead, hne, hturn⟩
  · exact (coreMove_result (s := { s with env.agenda := more }) hs hmove :)
  · rcases turnStep_env_or_reset hne hturn with ⟨e, rfl⟩ | ⟨rfl, -⟩
    · exact .inr (leavesResult_of_same rfl rfl)
    · exact absurd hhead hrst

/-! ## The reset state (R70, R422) -/

/-- Settles O59, invariant by invariant. -/
theorem resetStateIsSound : Obligations.ResetStateIsSound := by
  unfold Obligations.ResetStateIsSound
  have hframes : State.reset.FramesSound := ⟨result_empty_sound, queue_reset_sound, corrSound_of_none rfl⟩
  have hrsm : State.reset.rsm.Sound := rsmSound_of_no_frame (.inl rfl)
  have hcontrol : State.reset.ControlSound := controlSound_of_idle rfl rfl
  have hpins : State.reset.PinsSound := pinsSound_of_reset_high (.inl rfl) rfl
  have henv : State.reset.env.Sound := ⟨.nil, nofun, by decide⟩
  have hport : State.reset.PortSound := ⟨nofun, nofun⟩
  exact ⟨⟨hframes, hrsm, hcontrol, hpins, henv, hport⟩, rfl, rfl, rfl, rfl, rfl, rfl, rfl, rfl, rfl, rfl, rfl,
    rfl, rfl, rfl, rfl⟩

end StateInvariants
end Sys2Proof
end

section
/-! Computed times past 2^64 - 1 (R66, R182; 93 U10): each computation refuses the run. -/

namespace Sys2Proof
namespace StateInvariants

open Machine Claims

/-- The operand's time is the operand (R124). -/
theorem toNat_timeoutTime (tm : BitVec 32) : (timeoutTime tm).toNat = tm.toNat := by
  have hlt := tm.isLt
  rw [timeoutTime, BitVec.toNat_setWidth, Nat.mod_eq_of_lt (by omega)]

theorem startReceive_overflow {tm : BitVec 32} {s : State} (h : 2 ^ 64 ≤ s.env.now.toNat + tm.toNat)
    (e : Option Byte) (ph : CtlPhase) :
    startReceive (timeoutTime tm) e ph s = .refused .deadlineOverflow := by
  rw [startReceive, addTime_eq_none.2 (by rwa [toNat_timeoutTime])]

theorem nextOrFinish_overflow {s : State} (hm : s.corr.remaining ≠ 0#8)
    (h : 2 ^ 64 ≤ s.env.now.toNat + s.corr.timeout.toNat) : nextOrFinish s = .refused .deadlineOverflow := by
  rw [nextOrFinish, if_neg hm]
  refine startReceive_overflow ?_ _ _
  exact h

theorem moduleResetPhase_overflow {w : Time} {s : State} (h : 2 ^ 64 ≤ s.env.now.toNat + w.toNat) (v : Bool)
    (ph : CtlPhase) : moduleResetPhase v w ph s = .refused .deadlineOverflow := by
  rw [moduleResetPhase, addTime_eq_none.2 h]

theorem execPollIndication_overflow {tm : BitVec 32} {s : State}
    (h : 2 ^ 64 ≤ s.env.now.toNat + tm.toNat) (hq : s.queue.count = 0#6) :
    execPollIndication tm s = .refused .deadlineOverflow := by
  rw [execPollIndication, if_pos (by rw [Queue.isEmpty, hq]; rfl)]
  refine startReceive_overflow ?_ _ _
  exact h

theorem execTransaction_overflow {p : List Byte} {s : State} (hp : p.length ≤ 255)
    (h : 2 ^ 64 ≤ s.env.now.toNat + s.params.tWake.toNat) (c : Byte) (tm : BitVec 32) (n : Option Byte)
    (m : Byte) (st : Bool) : execTransaction c p tm n m st s = .refused .deadlineOverflow := by
  rw [execTransaction, if_neg (Bool.eq_false_iff.1 (payloadTooLarge_eq_false.2 hp)), addTime_eq_none.2 h]

/-- With the agenda empty the step is the Core's (R6). -/
theorem step_of_coreNext {s : State} (h : coreNext s) : step s = coreStep s := by
  obtain ⟨hok, hnil⟩ := h
  rw [step, if_pos hok, hnil]

theorem whenReached_of_le {u : Time} {go : State → Host.Outcome State Fault Refusal} {s : State}
    (h : u ≤ s.env.now) : whenReached u go s = go s := if_pos h

/-- The step at the end of TRANSACTION's wait, whose first attempt has no deadline in 64 bits (R265, R270). -/
theorem step_overflow_of_trWake {s : State} {c : Byte} {p : List Byte} {tm : BitVec 32} {n : Option Byte}
    {m : Byte} {st : Bool} (hnext : coreNext s) (hctl : s.ctl = .trWake) (due : s.twUntil ≤ s.env.now)
    (hm : m ≠ 0#8) (hop : decodeOp s.host.curOp = .ok (.transaction c p tm n m st))
    (h : 2 ^ 64 ≤ s.env.now.toNat + tm.toNat) : step s = .refused .deadlineOverflow := by
  have htransmit : transactionTransmit s = .refused .deadlineOverflow := by
    rw [transactionTransmit, hop]
    exact nextOrFinish_overflow hm h
  rw [step_of_coreNext hnext, coreStep, hctl]
  exact (whenReached_of_le due).trans htransmit

/-- The step at the end of `CTL_MR_LOW`, whose wait `T_SETTLE` has no end in 64 bits (R290). -/
theorem step_overflow_of_mrLow {s : State} (hnext : coreNext s) (hctl : s.ctl = .mrLow)
    (due : s.mrUntil ≤ s.env.now) (h : 2 ^ 64 ≤ s.env.now.toNat + s.params.tSettle.toNat) :
    step s = .refused .deadlineOverflow := by
  rw [step_of_coreNext hnext, coreStep, hctl]
  exact (whenReached_of_le due).trans (moduleResetPhase_overflow h _ _)

/-- However an attempt ends without a match, the next one has no deadline in 64 bits (R261, R265). -/
theorem deliver_overflow {s : State} {o : RsmOutcome} (hctl : s.ctl = .rrAttempt)
    (hm : s.corr.remaining ≠ 0#8) (h : 2 ^ 64 ≤ s.env.now.toNat + s.corr.timeout.toNat)
    (hmiss : ∀ f, o = .frame f false → wrongLength s.corr f = true) :
    deliver o s = .refused .deadlineOverflow := by
  rw [deliver, hctl]
  show attemptEnd o s = _
  cases o with
  | timedOut => exact nextOrFinish_overflow hm h
  | frame f ind =>
    cases ind with
    | true =>
      refine nextOrFinish_overflow ?_ ?_ <;> rw [enqueue_corr] <;> split <;> assumption
    | false =>
      rw [attemptEnd, if_neg Bool.false_ne_true, if_pos (hmiss f rfl)]
      exact nextOrFinish_overflow hm h

theorem step_clockOverflow {s : State} {n : Nat} {more : List Turn} (hok : s.params.ok = true)
    (hagenda : s.env.agenda = .time n :: more) (h : 2 ^ 64 ≤ n) : step s = .refused .clockOverflow := by
  rw [step, if_pos hok, hagenda]
  exact if_pos h

/-- Settles O34, one case for each place where a time is computed. -/
theorem overflowRefusesTheRun : Obligations.OverflowRefusesTheRun := by
  unfold Obligations.OverflowRefusesTheRun
  refine ⟨fun c tm e n m st p s => ⟨fun h => ⟨?receive, ?request, ?poll, ?transmit⟩, ?wake, ?resetLow⟩,
    ?resetHigh, ?attempts, ?time⟩
  case receive => exact startReceive_overflow h _ _
  case request => exact fun hm => nextOrFinish_overflow hm h
  case poll => exact execPollIndication_overflow h
  case transmit => exact fun hnext hctl due hm hop => step_overflow_of_trWake hnext hctl due hm hop h
  case wake => exact fun h hp => execTransaction_overflow hp h c tm n m st
  case resetLow => exact fun h => moduleResetPhase_overflow h _ _
  case resetHigh => exact fun s => step_overflow_of_mrLow
  case attempts =>
    intro s hm h
    refine ⟨nextOrFinish_overflow hm h, fun hctl => ⟨?_, fun f => ?_, fun f n hexp hlen => ?_⟩⟩
    · exact deliver_overflow hctl hm h nofun
    · exact deliver_overflow hctl hm h nofun
    · refine deliver_overflow hctl hm h fun g hg => ?_
      cases hg
      simpa [wrongLength, hexp] using hlen
  case time => exact fun s n more => step_clockOverflow

end StateInvariants
end Sys2Proof
end

section
/-! The RX stream (R67, R85, R86): which steps append to it and which pop it, and the turns of the Transport
and of Time with the ranges that R66, R67 and R192 set them. -/

namespace Sys2Proof
namespace StateInvariants

open Machine Claims

/-! ## What the Core pops (R85, R183) -/

/-- Going on with a correlation is no access to a stream (R261, R262). -/
theorem nextOrFinish_env {s t : State} (h : nextOrFinish s = .next t) : t.env = s.env := by
  rcases nextOrFinish_next h with ⟨-, rfl⟩ | ⟨d, -, rfl⟩
  · rw [finishExhausted, endCorrelation_env, writeResult_env]
  · rfl

theorem attemptEnd_env {o : RsmOutcome} {s t : State} (h : attemptEnd o s = .next t) : t.env = s.env := by
  rcases attemptEnd_next h with ⟨f, -, -, rfl⟩ | ⟨u, hnext, hcase⟩
  · rw [finishMatched, endCorrelation_env, writeResult_env]
  · have hu : u.env = s.env := by
      rcases hcase with ⟨-, rfl⟩ | ⟨f, -, rfl⟩ | ⟨f, -, rfl⟩ | ⟨f, -, rfl⟩ <;> rfl
    rw [nextOrFinish_env hnext, hu]

theorem deliver_env {o : RsmOutcome} {s t : State} (h : deliver o s = .next t) : t.env = s.env := by
  rcases deliver_next h with ⟨-, rfl⟩ | ⟨-, hend⟩
  · rfl
  · exact attemptEnd_env hend

/-- An RSM step and the delivery of its outcome are no access to a stream: the byte has been popped before
(R183, R195). -/
theorem applyRsm_env {st : RsmStep} {s t : State} (h : applyRsm st s = .next t) : t.env = s.env := by
  rcases applyRsm_next h with ⟨-, rfl⟩ | ⟨o, -, hdeliver⟩
  · rfl
  · exact (deliver_env hdeliver :)

/-- No host operation reads the RX stream in its first step (R86, R180). -/
theorem exec_rx {i : Instr} (hhost : i.codeByte = none) {s t : State} (h : exec i s = .next t) :
    t.env.rx = s.env.rx := by
  cases i with
  | encode c p =>
    change execEncode c p s = _ at h
    unfold execEncode at h
    split at h <;> cases h <;> rfl
  | check d => cases h; rfl
  | send c p =>
    change execSend c p s = _ at h
    unfold execSend at h
    split at h <;> cases h <;> rfl
  | receive tm e =>
    obtain ⟨d, -, rfl⟩ := startReceive_next h
    rfl
  | requestReply c tm n m st =>
    change execRequestReply c tm n m st s = _ at h
    exact (congrArg Env.rx (nextOrFinish_env h) :)
  | dequeue =>
    change execDequeue s = _ at h
    unfold execDequeue at h
    split at h <;> cases h <;> rfl
  | pollIndication tm =>
    change execPollIndication tm s = _ at h
    unfold execPollIndication at h
    split at h
    · obtain ⟨d, -, rfl⟩ := startReceive_next h
      rfl
    · cases h
      rfl
  | transaction c p tm n m st =>
    change execTransaction c p tm n m st s = _ at h
    unfold execTransaction at h
    split at h
    · cases h
      rfl
    · split at h <;> cases h
      rfl
  | wakeup => cases h; rfl
  | sleep => cases h; rfl
  | moduleReset =>
    obtain ⟨u, -, rfl⟩ := moduleResetPhase_next h
    rfl
  | _ => cases hhost

theorem acceptStep_rx (s : State) : (acceptStep s).env.rx = s.env.rx := by
  unfold acceptStep
  split <;> rfl

theorem idlePhaseStep_rx {s t : State} (h : idlePhaseStep s = .next t) : t.env.rx = s.env.rx := by
  rcases idlePhaseStep_next h with ⟨-, rfl⟩ | ⟨-, i, hop, hexec⟩ | ⟨-, e, -, -, rfl⟩
  · exact acceptStep_rx s
  · exact exec_rx (codeByte_of_decodeOp hop) hexec
  · rfl

theorem transactionTransmit_rx {s t : State} (h : transactionTransmit s = .next t) : t.env.rx = s.env.rx := by
  obtain ⟨c, p, tm, n, m, st, -, hnext⟩ := transactionTransmit_next h
  exact (congrArg Env.rx (nextOrFinish_env hnext) :)

theorem moduleResetPhase_rx {v : Bool} {w : Time} {ph : CtlPhase} {s t : State}
    (h : moduleResetPhase v w ph s = .next t) : t.env.rx = s.env.rx := by
  obtain ⟨u, -, rfl⟩ := moduleResetPhase_next h
  rfl

/-- A timed wait leaves the RX stream when the step at its end does. -/
theorem whenReached_rx {u : Time} {go : State → Host.Outcome State Fault Refusal} {s t : State}
    (hgo : go s = .next t → t.env.rx = s.env.rx) (h : whenReached u go s = .next t) : t.env.rx = s.env.rx := by
  rcases whenReached_next h with ⟨-, hdue⟩ | ⟨-, rfl⟩
  · exact hgo hdue
  · rfl

/-- In a receive phase the Core pops the head when it counts, and reads nothing else (R183, R191). -/
theorem receivePhaseStep_rx {s t : State} (h : receivePhaseStep s = .next t) :
    t.env.rx = s.env.rx ∨
    ∃ x, s.env.rx = x :: t.env.rx ∧ x.2 < s.rsm.deadline ∧ s.rsm.phase ≠ .idle := by
  obtain ⟨hrun, ⟨b, hhead, hbyte⟩ | ⟨-, -, -, htimeout⟩ | ⟨-, -, rfl⟩⟩ := receivePhaseStep_next h
  · obtain ⟨a, rest, hrx, hlt⟩ := countedHead_eq_some hhead
    have hpop : t.env.rx = rest := by rw [applyRsm_env hbyte, rxPop_env, hrx, List.tail_cons]
    exact .inr ⟨(b, a), by rw [hrx, hpop], hlt, hrun⟩
  · exact .inl (congrArg Env.rx (applyRsm_env htimeout))
  · exact .inl rfl

/-- The Core pops only a byte that counts for the running receive (R183). -/
theorem coreStep_rx {s t : State} (h : coreStep s = .next t) :
    t.env.rx = s.env.rx ∨
    ∃ x, s.env.rx = x :: t.env.rx ∧ x.2 < s.rsm.deadline ∧ s.ctl.receiving = true ∧ s.rsm.phase ≠ .idle := by
  rcases coreStep_next h with ⟨-, hidle⟩ | ⟨hctl, hrecv⟩ | ⟨-, hwait⟩ | ⟨-, hwait⟩ | ⟨-, hwait⟩
  · exact .inl (idlePhaseStep_rx hidle)
  · have hphase : s.ctl.receiving = true := by rcases hctl with hctl | hctl | hctl <;> rw [hctl] <;> rfl
    rcases receivePhaseStep_rx hrecv with hsame | ⟨x, hrx, hlt, hrun⟩
    · exact .inl hsame
    · exact .inr ⟨x, hrx, hlt, hphase, hrun⟩
  · exact .inl (whenReached_rx transactionTransmit_rx hwait)
  · exact .inl (whenReached_rx moduleResetPhase_rx hwait)
  · exact .inl (whenReached_rx (fun hdone => by cases hdone; rfl) hwait)

/-! ## What a step does to the stream (R67, R85, R86) -/

/-- The RX stream stays, gains the byte of the Transport's turn at its end, or loses a counted head in the
Core's turn. -/
def RxAdvances (s t : State) : Prop :=
  (t.env.rx = s.env.rx ∧ t.env.lastArrival = s.env.lastArrival) ∨
  (∃ x, t.env.rx = s.env.rx ++ [x] ∧ s.env.agenda.head? = some (.rx x.1 x.2) ∧
    s.env.lastArrival ≤ x.2 ∧ x.2 ≤ s.env.now ∧ t.env.lastArrival = x.2) ∨
  (∃ x, s.env.rx = x :: t.env.rx ∧ t.env.lastArrival = s.env.lastArrival ∧
    coreTurn s ∧ x.2 < s.rsm.deadline ∧ s.ctl.receiving = true ∧ s.rsm.phase ≠ .idle)

theorem rxAdvances_of_coreStep {s t : State} {more : List Turn} (hturn : coreTurn s)
    (h : coreStep { s with env.agenda := more } = .next t) : RxAdvances s t := by
  obtain ⟨-, hlast, -⟩ := coreMove_consumes (coreMove_of_coreStep h)
  rcases coreStep_rx h with hsame | ⟨x, hrx, hlt, hphase, hrun⟩
  · exact .inl ⟨hsame, hlast⟩
  · exact .inr (.inr ⟨x, hrx, hlast, hturn, hlt, hphase, hrun⟩)

/-- Taking a TX byte is no access to the RX stream (R68). -/
theorem txTakeTurn_rx (s : State) :
    (txTakeTurn s).env.rx = s.env.rx ∧ (txTakeTurn s).env.lastArrival = s.env.lastArrival := by
  unfold txTakeTurn
  split <;> exact ⟨rfl, rfl⟩

/-- The Transport appends a byte in order, and a block reset leaves the stream (R67, R420). -/
theorem rxAdvances_of_turnStep {s t : State} {a : Turn} {more : List Turn} (hhead : s.env.agenda.head? = some a)
    (h : turnStep a { s with env.agenda := more } = .next t) : RxAdvances s t := by
  rcases turnStep_next h with ⟨rfl, hcore⟩ | ⟨op, -, -, rfl⟩ | ⟨b, u, rfl, hlate, hnow, rfl⟩ | ⟨-, rfl⟩ |
    ⟨n, -, -, -, -, rfl⟩ | ⟨-, rfl⟩
  · exact rxAdvances_of_coreStep (.inr hhead) hcore
  · exact .inl ⟨rfl, rfl⟩
  · exact .inr (.inl ⟨(b, u), rfl, hhead, hlate, hnow, rfl⟩)
  · exact .inl (txTakeTurn_rx _ :)
  · exact .inl ⟨rfl, rfl⟩
  · exact .inl ⟨rfl, rfl⟩

theorem step_rxAdvances {s t : State} (h : step s = .next t) : RxAdvances s t := by
  obtain ⟨-, ⟨hnil, hcore⟩ | ⟨a, more, hcons, hturn⟩⟩ := step_next h
  · exact rxAdvances_of_coreStep (more := s.env.agenda) (.inl (by rw [hnil]; rfl)) hcore
  · exact rxAdvances_of_turnStep (by rw [hcons]; rfl) hturn

/-! ## The turns of the Transport and of Time (R66 to R68, R192) -/

/-- The step is the turn of the agent that stands first on the agenda (R6). -/
theorem step_of_agenda_cons {s : State} {a : Turn} {more : List Turn} (hok : s.params.ok = true)
    (hagenda : s.env.agenda = a :: more) : step s = turnStep a { s with env.agenda := more } := by
  rw [step, if_pos hok, hagenda]

theorem arrivalOk_eq_true {u : Time} {s : State} :
    arrivalOk u s = true ↔ s.env.lastArrival ≤ u ∧ u ≤ s.env.now := by
  rw [arrivalOk, Bool.and_eq_true, decide_eq_true_eq, decide_eq_true_eq]

theorem rxTurn_in_order {u : Time} {s : State} (b : Byte) (hlate : s.env.lastArrival ≤ u)
    (hnow : u ≤ s.env.now) :
    rxTurn b u s = .next { s with env.rx := s.env.rx ++ [(b, u)], env.lastArrival := u } :=
  if_pos (arrivalOk_eq_true.2 ⟨hlate, hnow⟩)

theorem rxTurn_out_of_order {u : Time} {s : State} (b : Byte) (h : u < s.env.lastArrival ∨ s.env.now < u) :
    rxTurn b u s = .refused .arrivalOutOfOrder := by
  refine if_neg fun hok => ?_
  obtain ⟨hlate, hnow⟩ := arrivalOk_eq_true.1 hok
  rcases h with hearly | hfuture
  · exact BitVec.not_lt.2 hlate hearly
  · exact BitVec.not_lt.2 hnow hfuture

theorem txTakeTurn_of_empty {s : State} (h : s.env.tx = []) : txTakeTurn s = s := by
  rw [txTakeTurn, h]

theorem txTakeTurn_of_cons {s : State} {b : Byte} {rest : List Byte} (h : s.env.tx = b :: rest) :
    txTakeTurn s = { s with env.tx := rest, env.txTaken := s.env.txTaken ++ [b] } := by
  rw [txTakeTurn, h]

/-- A head that arrived before the deadline counts (R183). -/
theorem countedHead_of_head {s : State} {x : Byte × Time} (hhead : s.env.rx.head? = some x)
    (hlt : x.2 < s.rsm.deadline) : countedHead s = some x.1 := by
  rw [countedHead, rxNext, hhead]
  exact if_pos (decide_eq_true hlt)

/-- Time is not held while no receive runs or a counted byte is at the head, nor within the bound of R192. -/
theorem passesOverrun_eq_false {n : Nat} {s : State}
    (h : s.rsm.phase = .idle ∨ (∃ x, s.env.rx.head? = some x ∧ x.2 < s.rsm.deadline) ∨
      n ≤ s.rsm.deadline.toNat + s.params.tOverrun.toNat) : passesOverrun n s = false := by
  rcases h with hidle | ⟨x, hhead, hlt⟩ | hwithin
  · simp [passesOverrun, hidle]
  · simp [passesOverrun, countedHead_of_head hhead hlt]
  · simp [passesOverrun, withinOverrun, hwithin]

theorem timeTurn_forward {n : Nat} {s : State} (hlt : n < 2 ^ 64) (hfwd : s.env.now.toNat ≤ n)
    (hheld : passesOverrun n s = false) : timeTurn n s = .next { s with env.now := BitVec.ofNat 64 n } := by
  rw [timeTurn, if_neg (Nat.not_le.2 hlt), if_neg (Nat.not_lt.2 hfwd), if_neg (Bool.eq_false_iff.1 hheld)]

theorem timeTurn_backwards {n : Nat} {s : State} (hlt : n < 2 ^ 64) (hback : n < s.env.now.toNat) :
    timeTurn n s = .refused .timeBackwards := by
  rw [timeTurn, if_neg (Nat.not_le.2 hlt), if_pos hback]

/-- Settles O53: the inversion of the step gives what happens to the RX stream, and each of the three turns is
its own function's case. -/
theorem rxNeverFlushed : Obligations.RxNeverFlushed := by
  unfold Obligations.RxNeverFlushed
  refine ⟨fun s t => step_rxAdvances, fun s b a more hok hagenda => ?arrival,
    fun s more hok hagenda => ?taken, fun s n more hok hagenda hlt => ?time⟩ <;> rw [step_of_agenda_cons hok hagenda]
  case arrival => exact ⟨fun hlate hnow => rxTurn_in_order b hlate hnow, fun h => rxTurn_out_of_order b h⟩
  case taken =>
    exact ⟨fun h => congrArg Host.Outcome.next (txTakeTurn_of_empty h),
      fun _ _ h => congrArg Host.Outcome.next (txTakeTurn_of_cons h)⟩
  case time =>
    exact ⟨fun hfwd hfree => timeTurn_forward hlt hfwd (passesOverrun_eq_false hfree),
      fun hback => timeTurn_backwards hlt hback⟩

end StateInvariants
end Sys2Proof
end

section
/-! Host operation records (R120 to R124): when a record decodes and to what, and the encoder's records. -/

namespace Sys2Proof

/-! ## The decoder of a record -/

/-- The header meets none of R123 (b) to (d) when its row reads `r`. -/
def Header.LegalUnder (h : Header) (r : Reads) : Prop :=
  (h.rsvdLo = 0#5 ∧ h.rsvdHi = 0#8) ∧
  ((h.cv = true → r.cv = true) ∧ (h.lv = true → r.lv = true) ∧ (h.strict = true → r.strict = true)) ∧
  (h.plen = 0#16 ∨ r.data = true)

theorem Header.setsUnreadFlag_eq_false (h : Header) (r : Reads) :
    h.setsUnreadFlag r = false ↔
      (h.cv = true → r.cv = true) ∧ (h.lv = true → r.lv = true) ∧ (h.strict = true → r.strict = true) := by
  simp only [Header.setsUnreadFlag, Bool.or_eq_false_iff, Bool.and_eq_false_imp, Bool.not_eq_false', and_assoc]

theorem HostOp.wf_iff (o : HostOp) : o.wf = true ↔ o.data.length = (Header.ofBits o.header).plen.toNat := by
  rw [HostOp.wf, decide_eq_true_eq, HostOp.plen_eq]

/-- What the decoder can answer (R120, R122, R123). -/
inductive DecodesTo (o : HostOp) : Except DecodeError Instr → Prop
  /-- The record does not carry `PLEN` operand bytes. -/
  | malformed (short : o.wf = false) : DecodesTo o (.error .operandLength)
  /-- No row has the selector, or the header is not legal under the row. -/
  | illegal (e : DecodeError) (record : o.wf = true) (named : e.isIllegalOp = true)
      (norow : ∀ sel, selectorTable.lookup (Header.ofBits o.header).op = some sel →
        ¬ (Header.ofBits o.header).LegalUnder sel.reads) : DecodesTo o (.error e)
  /-- The row's instruction. -/
  | legal (sel : Selector) (record : o.wf = true)
      (row : selectorTable.lookup (Header.ofBits o.header).op = some sel)
      (fields : (Header.ofBits o.header).LegalUnder sel.reads) :
      DecodesTo o (.ok (sel.build (Header.ofBits o.header) o.data))

theorem decodesTo_decodeOp (o : HostOp) : DecodesTo o (decodeOp o) := by
  unfold decodeOp
  dsimp only
  cases hwf : o.wf with
  | false =>
    rw [if_pos (mt o.wf_iff.2 (Bool.eq_false_iff.1 hwf))]
    exact .malformed hwf
  | true =>
    rw [if_neg (not_not.2 (o.wf_iff.1 hwf))]
    cases hrow : selectorTable.lookup (Header.ofBits o.header).op with
    | none => exact .illegal _ hwf rfl fun sel hsel => by rw [hrow] at hsel; cases hsel
    | some sel =>
      have hillegal {e : DecodeError} (he : e.isIllegalOp = true)
          (hnot : ¬ (Header.ofBits o.header).LegalUnder sel.reads) : DecodesTo o (.error e) :=
        .illegal e hwf he fun sel' hsel' => Option.some_inj.1 (hrow.symm.trans hsel') ▸ hnot
      have hflags := Header.setsUnreadFlag_eq_false (Header.ofBits o.header) sel.reads
      dsimp only
      split_ifs with hrsvd hflag hdata
      · exact hillegal rfl fun ⟨⟨hlo, hhi⟩, _⟩ => hrsvd.elim (· hlo) (· hhi)
      · exact hillegal rfl fun ⟨_, hread, _⟩ => Bool.false_ne_true ((hflags.2 hread).symm.trans hflag)
      · exact hillegal rfl fun ⟨_, _, hread⟩ => hread.elim hdata.1 (Bool.eq_false_iff.1 hdata.2)
      · rw [not_or, not_not, not_not] at hrsvd
        rw [not_and_or, not_not, Bool.not_eq_false] at hdata
        exact .legal sel hwf hrow ⟨hrsvd, hflags.1 (Bool.eq_false_iff.2 hflag), hdata⟩

/-- A record decodes to the instruction that its selector builds when its header is legal under the selector's
row (R122, R123). -/
theorem decodeOp_eq_ok_iff {o : HostOp} {i : Instr} :
    decodeOp o = .ok i ↔ o.wf = true ∧ ∃ sel, selectorTable.lookup (Header.ofBits o.header).op = some sel ∧
      (Header.ofBits o.header).LegalUnder sel.reads ∧ sel.build (Header.ofBits o.header) o.data = i := by
  have hdec := decodesTo_decodeOp o
  constructor
  · intro h
    rw [h] at hdec
    cases hdec with
    | legal sel record row fields => exact ⟨record, sel, row, fields, rfl⟩
  · rintro ⟨hwf, sel, hsel, hlegal, rfl⟩
    generalize decodeOp o = answer at hdec
    cases hdec with
    | malformed short => exact absurd hwf (Bool.eq_false_iff.1 short)
    | illegal _ _ _ norow => exact absurd hlegal (norow sel hsel)
    | legal sel' _ row => rw [Option.some_inj.1 (row.symm.trans hsel)]

/-- A record that does not decode is an illegal operation of R123. -/
theorem isIllegalOp_of_decodeOp_error {o : HostOp} (hwf : o.wf = true) {e : DecodeError}
    (h : decodeOp o = .error e) : e.isIllegalOp = true := by
  have hdec := decodesTo_decodeOp o
  rw [h] at hdec
  cases hdec with
  | malformed short => exact absurd hwf (Bool.eq_false_iff.1 short)
  | illegal _ _ named => exact named

/-! ## The selector table (R122) -/

theorem lookup_selectorTable_iff {op : Byte} {sel : Selector} :
    selectorTable.lookup op = some sel ↔ (op, sel) ∈ selectorTable := by
  constructor
  · intro h
    obtain ⟨l₁, l₂, hsplit, -⟩ := List.lookup_eq_some_iff.1 h
    rw [hsplit]
    exact List.mem_append_right _ List.mem_cons_self
  · have hkeys : ∀ x ∈ selectorTable, selectorTable.lookup x.1 = some x.2 := by decide
    exact hkeys (op, sel)

theorem lookup_selectorTable_eq_none_iff (op : Byte) :
    selectorTable.lookup op = none ↔ op = 0x00#8 ∨ 0x0C#8 ≤ op := by
  simp only [List.lookup_eq_none_iff, selectorTable, List.forall_mem_cons, bne_iff_ne, List.not_mem_nil,
    false_imp_iff, implies_true, and_true]
  bv_omega

/-! ## The encoder's records (R120, R125) -/

theorem optionField_isSome_getD (e : Option Byte) : optionField e.isSome (e.getD 0#8) = e := by
  cases e <;> rfl

/-- Operand bytes fit the 16-bit `PLEN` (R120). -/
theorem Instr.length_operandBytes_lt {i : Instr} (h : i.wf = true) : i.operandBytes.length < 65536 := by
  cases i with
  | encode | check | send | transaction => exact of_decide_eq_true h
  | _ => exact Nat.zero_lt_succ _

/-- The header of an instruction is legal under its own row, which builds the instruction back (R122, R124). -/
theorem Instr.header_builds {i : Instr} {h : Header} (hh : i.header = some h) :
    h.plen = BitVec.ofNat 16 i.operandBytes.length ∧ ∃ sel, selectorTable.lookup h.op = some sel ∧
      h.LegalUnder sel.reads ∧ sel.build h i.operandBytes = i := by
  cases i with
  | encode | check | send | dequeue | pollIndication | wakeup | sleep | moduleReset =>
    cases hh
    exact ⟨rfl, _, rfl, by simp [Header.LegalUnder, Header.zero, Selector.reads], rfl⟩
  | receive t e =>
    cases hh
    exact ⟨rfl, .receive, rfl, by simp [Header.LegalUnder, Header.zero, Selector.reads],
      congrArg (Instr.receive t) (optionField_isSome_getD e)⟩
  | requestReply c t n m st =>
    cases hh
    exact ⟨rfl, .requestReply, rfl, by simp [Header.LegalUnder, Header.zero, Selector.reads],
      congrArg (Instr.requestReply c t · m st) (optionField_isSome_getD n)⟩
  | transaction c p t n m st =>
    cases hh
    exact ⟨rfl, .transaction, rfl, by simp [Header.LegalUnder, Header.zero, Selector.reads],
      congrArg (Instr.transaction c p t · m st) (optionField_isSome_getD n)⟩
  | _ => cases hh

/-- The encoder's record is a record of R120, and decodes to the instruction. -/
theorem wf_decodeOp_of_encodeOp {i : Instr} {o : HostOp} (hi : i.wf = true) (ho : encodeOp i = some o) :
    o.wf = true ∧ decodeOp o = .ok i := by
  obtain ⟨h, hh, rfl⟩ := Option.map_eq_some_iff.1 ho
  obtain ⟨hplen, hbuild⟩ := i.header_builds hh
  have hwf : ({ header := h.toBits, data := i.operandBytes } : HostOp).wf = true := by
    rw [HostOp.wf_iff, Header.ofBits_toBits, hplen, BitVec.toNat_ofNat,
      Nat.mod_eq_of_lt (i.length_operandBytes_lt hi)]
  exact ⟨hwf, decodeOp_eq_ok_iff.2 ⟨hwf, by rwa [Header.ofBits_toBits]⟩⟩

/-- An instruction has a record or a CODE byte, and the port is where it is fetched (R116, R120). -/
theorem Instr.encodeOp_or_codeByte (i : Instr) :
    (∃ o, encodeOp i = some o ∧ i.port = .host) ∨
    (∃ b, encodeOp i = none ∧ i.codeByte = some b ∧ i.port = .rx) := by
  cases i with
  | encode | check | send | receive | requestReply | dequeue | pollIndication | transaction | wakeup | sleep
  | moduleReset => exact .inl ⟨_, rfl, rfl⟩
  | _ => exact .inr ⟨_, rfl, rfl, rfl⟩

theorem decodeCode_of_codeByte {i : Instr} {b : Byte} (h : i.codeByte = some b) : decodeCode b = .ok i := by
  cases i <;> cases h <;> rfl

/-! ## The bytes of a record (R120; log entry 5) -/

theorem ofNat_leNat_leBytes (h : BitVec 96) : BitVec.ofNat 96 (leNat (leBytes 12 h.toNat)) = h := by
  rw [leNat_leBytes, Nat.mod_eq_of_lt (by have := h.isLt; omega), BitVec.ofNat_toNat, BitVec.setWidth_eq]

/-- A record is taken off its own bytes, whatever follows them. -/
theorem takeHostOp_append {o : HostOp} (hwf : o.wf = true) (rest : List Byte) :
    takeHostOp (leBytes 12 o.header.toNat ++ o.data ++ rest) = .ok (o, rest) := by
  have hhead : (leBytes 12 o.header.toNat).length = 12 := length_leBytes _ _
  have hlen := o.wf_iff.1 hwf
  unfold takeHostOp
  dsimp only
  rw [List.append_assoc, List.take_left' hhead, List.drop_left' hhead, ofNat_leNat_leBytes, ← hlen]
  simp

end Sys2Proof
end

section
/-! The encodings of R116 and R120 to R124: the round trip of the encoder and the decoder, the opcode table's
masks, the operands and the illegal operations. -/

namespace Sys2Proof
namespace Encodings

open Machine Claims

/-! ## The round trip (R116, R120, R122, R124) -/

theorem decode_host_encode {i : Instr} {o : HostOp} (hi : i.wf = true) (ho : encodeOp i = some o)
    (rest : List Byte) : decode .host (Sys2Proof.encode i ++ rest) = .ok (i, rest) := by
  obtain ⟨hwf, hok⟩ := wf_decodeOp_of_encodeOp hi ho
  simp only [decode, Sys2Proof.encode, ho, takeHostOp_append hwf, hok]

theorem decode_rx_encode {i : Instr} {b : Byte} (hnone : encodeOp i = none) (hb : i.codeByte = some b)
    (rest : List Byte) : decode .rx (Sys2Proof.encode i ++ rest) = .ok (i, rest) := by
  simp only [decode, Sys2Proof.encode, hnone, hb, Option.toList, List.singleton_append,
    decodeCode_of_codeByte hb]

/-- Settles O1: the record or the CODE byte is taken off the bytes, and decodes to the instruction. -/
theorem decodeEncodeRoundTrip : Obligations.DecodeEncodeRoundTrip := by
  unfold Obligations.DecodeEncodeRoundTrip
  intro i rest hi
  rcases i.encodeOp_or_codeByte with ⟨o, ho, hport⟩ | ⟨b, hnone, hb, hport⟩ <;> rw [hport]
  · exact decode_host_encode hi ho rest
  · exact decode_rx_encode hnone hb rest

/-! ## The opcode table's rows (R122, R123) -/

/-- Two headers field by field under `&`. -/
def headerAnd (h k : Header) : Header where
  op := h.op &&& k.op
  code := h.code &&& k.code
  cv := h.cv && k.cv
  lv := h.lv && k.lv
  strict := h.strict && k.strict
  rsvdLo := h.rsvdLo &&& k.rsvdLo
  expLen := h.expLen &&& k.expLen
  maxRetries := h.maxRetries &&& k.maxRetries
  plen := h.plen &&& k.plen
  rsvdHi := h.rsvdHi &&& k.rsvdHi
  timeout := h.timeout &&& k.timeout

theorem ofBits_and (h k : BitVec 96) :
    Header.ofBits (h &&& k) = headerAnd (Header.ofBits h) (Header.ofBits k) := by
  simp only [Header.ofBits, headerAnd, BitVec.extractLsb'_and, BitVec.getLsbD_and]

/-- The bits that a row fixes: the selector and the reserved bits, and each flag and `PLEN` that the row does
not read. -/
def rowMask (r : Reads) : Header :=
  { Header.zero with
    op := BitVec.allOnes 8, cv := !r.cv, lv := !r.lv, strict := !r.strict, rsvdLo := BitVec.allOnes 5,
    plen := if r.data then 0#16 else BitVec.allOnes 16, rsvdHi := BitVec.allOnes 8 }

/-- The value of those bits: the selector, and else 0. -/
def rowMatch (op : Byte) : Header := { Header.zero with op := op }

theorem hostRows_eq :
    hostRows = selectorTable.map fun x => ((rowMatch x.1).toBits, (rowMask x.2.reads).toBits) := by
  decide

theorem headerAnd_rowMask_eq_iff (h : Header) (r : Reads) (op : Byte) :
    headerAnd h (rowMask r) = rowMatch op ↔ h.op = op ∧ h.LegalUnder r := by
  have hplen : h.plen &&& (if r.data then 0#16 else BitVec.allOnes 16) = 0#16 ↔ h.plen = 0#16 ∨ r.data = true := by
    cases r.data with
    | false => rw [if_neg Bool.false_ne_true, BitVec.and_allOnes, or_iff_left Bool.false_ne_true]
    | true => simp
  have hflag (a b : Bool) : (a && !b) = false ↔ (a = true → b = true) := by
    rw [Bool.and_eq_false_imp, Bool.not_eq_false']
  simp only [headerAnd, rowMask, rowMatch, Header.zero, Header.LegalUnder, Header.mk.injEq, BitVec.and_allOnes,
    BitVec.and_zero, hplen, hflag]
  tauto

/-- A header matches a row when it has the row's selector and is legal under the row. -/
theorem matches_row_iff (h : BitVec 96) (x : Byte × Selector) :
    h &&& (rowMask x.2.reads).toBits = (rowMatch x.1).toBits ↔
      (Header.ofBits h).op = x.1 ∧ (Header.ofBits h).LegalUnder x.2.reads := by
  have hinj : Function.Injective Header.ofBits := Function.LeftInverse.injective Header.toBits_ofBits
  rw [← hinj.eq_iff, ofBits_and, Header.ofBits_toBits, Header.ofBits_toBits, headerAnd_rowMask_eq_iff]

/-- Settles O2: a row's mask fixes what a legal header of the row's selector may not choose. -/
theorem legalHeadersMatchTheOpcodeTable : Obligations.LegalHeadersMatchTheOpcodeTable := by
  unfold Obligations.LegalHeadersMatchTheOpcodeTable
  intro op hwf
  rw [hostRows_eq]
  constructor
  · rintro ⟨i, hi⟩
    obtain ⟨-, sel, hsel, hlegal, -⟩ := decodeOp_eq_ok_iff.1 hi
    exact ⟨_, List.mem_map_of_mem (lookup_selectorTable_iff.1 hsel), (matches_row_iff _ _).2 ⟨rfl, hlegal⟩⟩
  · rintro ⟨r, hr, hmatch⟩
    obtain ⟨⟨b, sel⟩, hmem, rfl⟩ := List.mem_map.1 hr
    obtain ⟨rfl, hlegal⟩ := (matches_row_iff _ _).1 hmatch
    exact ⟨_, decodeOp_eq_ok_iff.2 ⟨hwf, sel, lookup_selectorTable_iff.2 hmem, hlegal, rfl⟩⟩

/-! ## Operands (R124) -/

/-- Settles O3: the instruction is the one that its row of the selector table builds. -/
theorem operandAssembly : Obligations.OperandAssembly := by
  unfold Obligations.OperandAssembly
  refine ⟨fun h d i hok => ?_, StateInvariants.toNat_timeoutTime, fun _ _ _ _ => rfl, fun _ _ _ _ _ => rfl⟩
  obtain ⟨hwf, sel, hsel, -, rfl⟩ := decodeOp_eq_ok_iff.1 hok
  exact ⟨(HostOp.wf_iff _).1 hwf, List.mem_map_of_mem (f := fun x => (x.1, x.2.build (Header.ofBits h) d))
    (lookup_selectorTable_iff.1 hsel)⟩

/-! ## Illegal operations (R123) -/

/-- The column "reads" of R122, by the selector's value. -/
theorem reads_of_mem_selectorTable : ∀ x ∈ selectorTable,
    x.2.reads = { cv := decide (x.1 = 0x04#8), lv := decide (x.1 ∈ [0x05#8, 0x08#8]),
                  strict := decide (x.1 ∈ [0x05#8, 0x08#8]),
                  data := decide (x.1 ∈ [0x01#8, 0x02#8, 0x03#8, 0x08#8]) } := by
  decide

/-- The conditions (a) to (d) say that no row has the header's selector, or that the header is not legal under
the row. -/
theorem not_isIllegal_iff (h : Header) :
    ¬ isIllegal h ↔ ∃ sel, selectorTable.lookup h.op = some sel ∧ h.LegalUnder sel.reads := by
  unfold isIllegal
  rw [← lookup_selectorTable_eq_none_iff]
  cases hsel : selectorTable.lookup h.op with
  | none => simp
  | some sel =>
    simp only [Option.some.injEq, exists_eq_left', Header.LegalUnder,
      reads_of_mem_selectorTable _ (lookup_selectorTable_iff.1 hsel), decide_eq_true_eq]
    tauto

theorem decodeOp_ok_iff_not_isIllegal {op : HostOp} (hwf : op.wf = true) :
    (∃ i, decodeOp op = .ok i) ↔ ¬ isIllegal (Header.ofBits op.header) := by
  rw [not_isIllegal_iff]
  constructor
  · rintro ⟨i, hi⟩
    obtain ⟨-, sel, hsel, hlegal, -⟩ := decodeOp_eq_ok_iff.1 hi
    exact ⟨sel, hsel, hlegal⟩
  · rintro ⟨sel, hsel, hlegal⟩
    exact ⟨_, decodeOp_eq_ok_iff.2 ⟨hwf, sel, hsel, hlegal, rfl⟩⟩

/-- In `CTL_IDLE` with an operation accepted, the Core runs it (R121). -/
theorem coreStep_of_busy {s : State} (hctl : s.ctl = .idle) (hbusy : s.host.busy = true) :
    coreStep s = runOp s := by
  rw [coreStep, hctl]
  exact if_pos hbusy

/-- An illegal operation ends in one step (R123). -/
theorem step_of_illegal {op : HostOp} {s : State} (hwf : op.wf = true)
    (hillegal : isIllegal (Header.ofBits op.header)) (hacc : accepted op s) :
    step s = .next (ended (statusOnly 0x06#8) s) := by
  obtain ⟨hnext, hctl, hbusy, rfl⟩ := hacc
  rw [StateInvariants.step_of_coreNext hnext, coreStep_of_busy hctl hbusy, runOp]
  cases hdec : decodeOp s.host.curOp with
  | ok i => exact absurd hillegal ((decodeOp_ok_iff_not_isIllegal hwf).1 ⟨i, hdec⟩)
  | error e => exact if_pos (isIllegalOp_of_decodeOp_error hwf hdec)

/-- An instruction is built from the fields that its row reads (R122, R124). -/
theorem build_of_sameReadFields {h k : Header} {sel : Selector} (hsel : (h.op, sel) ∈ selectorTable)
    (hsame : sameReadFields h k) (d : List Byte) : sel.build k d = sel.build h d := by
  obtain ⟨-, hcv, hlv, hstrict, -, -, -, hcode, hexp, hretries, htimeout⟩ := hsame
  have hlen (hop : h.op ∈ [0x05#8, 0x08#8]) : optionField k.lv k.expLen = optionField h.lv h.expLen := by
    rw [hlv]
    cases hval : h.lv with
    | false => rfl
    | true => rw [hexp hop hval]
  cases sel with
  | check | dequeue | wakeup | sleep | moduleReset => rfl
  | encode =>
    have hop : h.op = 0x01#8 := by simpa [selectorTable] using hsel
    simp only [Selector.build, hcode (by simp [hop])]
  | send =>
    have hop : h.op = 0x03#8 := by simpa [selectorTable] using hsel
    simp only [Selector.build, hcode (by simp [hop])]
  | receive =>
    have hop : h.op = 0x04#8 := by simpa [selectorTable] using hsel
    simp only [Selector.build, hcv, hcode (by simp [hop]), htimeout (by simp [hop])]
  | pollIndication =>
    have hop : h.op = 0x07#8 := by simpa [selectorTable] using hsel
    simp only [Selector.build, htimeout (by simp [hop])]
  | requestReply =>
    have hop : h.op = 0x05#8 := by simpa [selectorTable] using hsel
    simp only [Selector.build, hstrict, hcode (by simp [hop]), hlen (by simp [hop]), hretries (by simp [hop]),
      htimeout (by simp [hop])]
  | transaction =>
    have hop : h.op = 0x08#8 := by simpa [selectorTable] using hsel
    simp only [Selector.build, hstrict, hcode (by simp [hop]), hlen (by simp [hop]), hretries (by simp [hop]),
      htimeout (by simp [hop])]

theorem decodeOp_of_sameReadFields {op : HostOp} {k : Header} (hsame : sameReadFields (Header.ofBits op.header) k) :
    decodeOp { op with header := k.toBits } = decodeOp op := by
  have hbuild := fun sel hsel => build_of_sameReadFields (sel := sel) (lookup_selectorTable_iff.1 hsel) hsame op.data
  obtain ⟨_, _, _, _, _, _, _, _, _, _, _⟩ := k
  obtain ⟨rfl, rfl, rfl, rfl, rfl, rfl, rfl, -⟩ := hsame
  simp only [decodeOp, Header.ofBits_toBits]
  cases hsel : selectorTable.lookup (Header.ofBits op.header).op with
  | none => rfl
  | some sel =>
    dsimp only
    rw [hbuild sel hsel]
    rfl

/-- Settles O4: the conditions of R123 are what the decoder tests, on the fields that the row reads. -/
theorem illegalHostOperations : Obligations.IllegalHostOperations := by
  unfold Obligations.IllegalHostOperations
  exact fun op hwf => ⟨fun hillegal s => step_of_illegal hwf hillegal,
    (decodeOp_ok_iff_not_isIllegal hwf).2, fun k => decodeOp_of_sameReadFields⟩

/-! ## The accepted operation runs (R121, R122) -/

theorem coreStep_of_decoded {s : State} {i : Instr} (hctl : s.ctl = .idle) (hbusy : s.host.busy = true)
    (hop : decodeOp s.host.curOp = .ok i) : coreStep s = exec i s := by
  rw [coreStep_of_busy hctl hbusy, runOp, hop]

/-- Settles O7: in `CTL_IDLE` the Core runs what the accepted operation decodes to, whether the turn is on the
agenda or not. -/
theorem stepRunsHostInstruction : Obligations.StepRunsHostInstruction := by
  unfold Obligations.StepRunsHostInstruction
  intro s i hok hctl hbusy hop _
  refine ⟨fun hnil => ?_, fun rest hcons => ?_⟩
  · rw [StateInvariants.step_of_coreNext ⟨hok, hnil⟩, coreStep_of_decoded hctl hbusy hop]
  · rw [StateInvariants.step_of_agenda_cons hok hcons]
    exact coreStep_of_decoded (s := { s with env.agenda := rest }) hctl hbusy hop

/-! ## The spec's words (95 section 2.1) -/

/-- Settles O6, word by word. -/
theorem specWordsDecode : Obligations.SpecWordsDecode := by
  unfold Obligations.SpecWordsDecode
  refine ⟨?encode, ?receive, ?requestReply, ?transaction, ?moduleReset, ?badSelector, ?reply, ?sync⟩ <;> decide

end Encodings
end Sys2Proof
end

section
/-! The host port (R120, R121): what a step may do to the operations at it, and that the Core's step never reads
the agenda (log entry 2). -/

namespace Sys2Proof
namespace PresentedOperations

open Machine Claims

/-! ## The operations at the port (R120, R121) -/

theorem handsOver_port {s u : State} {o : RsmOutcome} (h : HandsOver s o u) :
    u.host = s.host ∧ u.env.hostQueue = s.env.hostQueue := by
  cases h
  exact ⟨rfl, rfl⟩

theorem correlatesFrom_hostQueue {s u : State} (h : CorrelatesFrom s u) : u.env.hostQueue = s.env.hostQueue := by
  cases h with
  | request | transmit => rfl
  | missed _ _ _ _ _ _ handed => exact ((handsOver_port handed).2 :)

/-- The operations presented stay, and so does `cur_op`; none is accepted. -/
def HoldsPort (s t : State) : Prop :=
  t.host.curOp = s.host.curOp ∧ t.env.hostQueue = s.env.hostQueue ∧ (t.host.busy = true → s.host.busy = true)

/-- The first operation presented is accepted. -/
def AcceptsFirst (s t : State) : Prop :=
  s.host.busy = false ∧ s.env.hostQueue = t.host.curOp :: t.env.hostQueue

theorem coreMove_port {s t : State} (h : CoreMove s t) : HoldsPort s t ∨ AcceptsFirst s t := by
  have hends {r : Result} {u : State} (hhost : u.host = s.host) (hqueue : u.env.hostQueue = s.env.hostQueue) :
      HoldsPort s (endCorrelation (writeResult r u)) := by
    simp [HoldsPort, hhost, hqueue]
  cases h with
  | accept op rest free hctl presented => exact .inr ⟨free, presented⟩
  | wait | receive | poll | wake | resetLow | resetHigh | byte => exact .inl ⟨rfl, rfl, id⟩
  | answer | send | dequeue | driveWake | resetDone => exact .inl ⟨rfl, rfl, nofun⟩
  | received o u hctl handed =>
    obtain ⟨hhost, hqueue⟩ := handsOver_port handed
    have hcur : u.host.curOp = s.host.curOp := by rw [hhost]
    exact .inl ⟨hcur, hqueue, nofun⟩
  | matched f u hctl handed =>
    obtain ⟨hhost, hqueue⟩ := handsOver_port handed
    exact .inl (hends hhost hqueue)
  | exhausted u origin => exact .inl (hends origin.host (correlatesFrom_hostQueue origin))
  | attempt u d origin =>
    have hport : HoldsPort s u := by
      rw [HoldsPort, origin.host]
      exact ⟨rfl, correlatesFrom_hostQueue origin, id⟩
    exact .inl hport

/-- Of the other agents, the Host presents records of R120 after those that wait, and the block reset leaves
nothing in progress. -/
theorem turnStep_port {a : Turn} {s t : State} (hne : a ≠ .core) (h : turnStep a s = .next t) :
    (∃ added, t.env.hostQueue = s.env.hostQueue ++ added ∧ ∀ op ∈ added, op.wf = true) ∧
    (t.host = s.host ∨ (a = .rst ∧ t.host.busy = false)) := by
  have hstay {q : List HostOp} (hq : q = s.env.hostQueue) :
      ∃ added, q = s.env.hostQueue ++ added ∧ ∀ op ∈ added, op.wf = true :=
    ⟨[], by rw [hq, List.append_nil], nofun⟩
  rcases turnStep_next h with ⟨rfl, -⟩ | ⟨op, -, hwf, rfl⟩ | ⟨b, u, -, -, -, rfl⟩ | ⟨-, rfl⟩ |
    ⟨n, -, -, -, -, rfl⟩ | ⟨rfl, rfl⟩
  · exact absurd rfl hne
  · exact ⟨⟨[op], rfl, by simpa using hwf⟩, .inl rfl⟩
  · exact ⟨hstay rfl, .inl rfl⟩
  · unfold txTakeTurn
    split <;> exact ⟨hstay rfl, .inl rfl⟩
  · exact ⟨hstay rfl, .inl rfl⟩
  · exact ⟨hstay rfl, .inr ⟨rfl, rfl⟩⟩

/-- Settles O58: an accepted operation was one presented, and the Host presents records. -/
theorem portSoundKept : Obligations.PortSoundKept := by
  unfold Obligations.PortSoundKept
  rintro s t ⟨hcur, hwait⟩ h
  rcases step_moves h with ⟨-, more, hmove⟩ | ⟨a, more, -, hne, hturn⟩
  · rcases coreMove_port hmove with ⟨hop, hqueue, hbusy⟩ | ⟨-, hqueue⟩
    · exact ⟨fun hb => hop ▸ hcur (hbusy hb), fun op hmem => hwait op (hqueue ▸ hmem)⟩
    · replace hqueue : s.env.hostQueue = t.host.curOp :: t.env.hostQueue := hqueue
      rw [hqueue, List.forall_mem_cons] at hwait
      exact ⟨fun _ => hwait.1, hwait.2⟩
  · obtain ⟨⟨added, hqueue, hadded⟩, hhost⟩ := turnStep_port hne hturn
    refine ⟨fun hb => ?_, fun op hmem => ?_⟩
    · rcases hhost with hhost | ⟨-, hfree⟩
      · rw [hhost] at hb ⊢
        exact hcur hb
      · rw [hfree] at hb
        cases hb
    · rw [hqueue, List.mem_append] at hmem
      exact hmem.elim (hwait op) (hadded op)

/-- While an operation is in progress, those presented stay presented, and `cur_op` stays unless the block is
reset (R31, R121). -/
theorem step_holds {s t : State} (hbusy : s.host.busy = true) (h : step s = .next t) :
    (∃ added, t.env.hostQueue = s.env.hostQueue ++ added) ∧
    (s.env.agenda.head? ≠ some .rst → t.host.curOp = s.host.curOp) := by
  rcases step_moves h with ⟨-, more, hmove⟩ | ⟨a, more, hhead, hne, hturn⟩
  · rcases coreMove_port hmove with ⟨hop, hqueue, -⟩ | ⟨hfree, -⟩
    · exact ⟨⟨[], by rw [hqueue, List.append_nil]⟩, fun _ => hop⟩
    · exact absurd hbusy (Bool.eq_false_iff.1 hfree)
  · obtain ⟨⟨added, hqueue, -⟩, hhost⟩ := turnStep_port hne hturn
    refine ⟨⟨added, hqueue⟩, fun hrst => ?_⟩
    rcases hhost with hhost | ⟨rfl, -⟩
    · exact congrArg HostPort.curOp hhost
    · exact absurd hhead hrst

/-! ## The Core never reads the agenda (log entry 2) -/

def withAgenda (l : List Turn) (s : State) : State := { s with env.agenda := l }

section WithAgenda
variable (l : List Turn) (s : State)

@[simp] theorem withAgenda_host : (withAgenda l s).host = s.host := rfl
@[simp] theorem withAgenda_rsm : (withAgenda l s).rsm = s.rsm := rfl
@[simp] theorem withAgenda_queue : (withAgenda l s).queue = s.queue := rfl
@[simp] theorem withAgenda_ctl : (withAgenda l s).ctl = s.ctl := rfl
@[simp] theorem withAgenda_corr : (withAgenda l s).corr = s.corr := rfl
@[simp] theorem withAgenda_mrUntil : (withAgenda l s).mrUntil = s.mrUntil := rfl
@[simp] theorem withAgenda_twUntil : (withAgenda l s).twUntil = s.twUntil := rfl
@[simp] theorem withAgenda_params : (withAgenda l s).params = s.params := rfl
@[simp] theorem withAgenda_now : (withAgenda l s).env.now = s.env.now := rfl
@[simp] theorem withAgenda_hostQueue : (withAgenda l s).env.hostQueue = s.env.hostQueue := rfl
@[simp] theorem countedHead_withAgenda : countedHead (withAgenda l s) = countedHead s := rfl
@[simp] theorem timeoutEnabled_withAgenda : timeoutEnabled (withAgenda l s) = timeoutEnabled s := rfl
@[simp] theorem withinOverrun_withAgenda (n : Nat) : withinOverrun n (withAgenda l s) = withinOverrun n s := rfl

theorem endCorrelation_withAgenda : endCorrelation (withAgenda l s) = withAgenda l (endCorrelation s) := by
  unfold endCorrelation
  rw [withAgenda_corr]
  cases s.corr.ctx <;> rfl

theorem acceptStep_withAgenda : acceptStep (withAgenda l s) = withAgenda l (acceptStep s) := by
  unfold acceptStep
  rw [withAgenda_hostQueue]
  cases s.env.hostQueue <;> rfl

end WithAgenda

/-- Change the next state of an outcome, if it has one. -/
def onNext (f : State → State) : Host.Outcome State Fault Refusal → Host.Outcome State Fault Refusal
  | .next t => .next (f t)
  | .fault r => .fault r
  | .refused r => .refused r

/-- The operation neither reads nor writes the agenda. -/
def AgendaBlind (go : State → Host.Outcome State Fault Refusal) : Prop :=
  ∀ l s, go (withAgenda l s) = onNext (withAgenda l) (go s)

theorem agendaBlind_startReceive (w : Time) (e : Option Byte) (ph : CtlPhase) :
    AgendaBlind (startReceive w e ph) := by
  intro l s
  unfold startReceive
  rw [withAgenda_now]
  cases addTime s.env.now w <;> rfl

theorem agendaBlind_moduleResetPhase (v : Bool) (w : Time) (ph : CtlPhase) :
    AgendaBlind (moduleResetPhase v w ph) := by
  intro l s
  unfold moduleResetPhase
  rw [withAgenda_now]
  cases addTime s.env.now w <;> rfl

theorem agendaBlind_nextOrFinish : AgendaBlind nextOrFinish := by
  intro l s
  unfold nextOrFinish
  rw [withAgenda_corr]
  split_ifs
  · exact congrArg Host.Outcome.next (endCorrelation_withAgenda l (writeResult (exhaustedResult s.corr) s))
  · exact agendaBlind_startReceive _ _ _ l { s with corr.remaining := s.corr.remaining - 1#8 }

theorem agendaBlind_attemptIndication (f : DecodedFrame) : AgendaBlind (attemptIndication f) := by
  intro l s
  unfold attemptIndication
  rw [withAgenda_params]
  split_ifs
  · exact agendaBlind_nextOrFinish l (enqueue f { s with corr.last := some f })
  · exact agendaBlind_nextOrFinish l (enqueue f s)

theorem finishMatched_withAgenda (f : DecodedFrame) (l : List Turn) (s : State) :
    finishMatched f (withAgenda l s) = withAgenda l (finishMatched f s) :=
  endCorrelation_withAgenda l (writeResult (frameResult f false true) s)

theorem agendaBlind_attemptEnd (o : RsmOutcome) : AgendaBlind (attemptEnd o) := by
  intro l s
  cases o with
  | timedOut => exact agendaBlind_nextOrFinish l s
  | frame f ind =>
    unfold attemptEnd
    dsimp only
    rw [withAgenda_corr, finishMatched_withAgenda]
    split_ifs
    · exact agendaBlind_attemptIndication f l s
    · exact agendaBlind_nextOrFinish l { s with corr.last := some f }
    · rfl

theorem agendaBlind_deliver (o : RsmOutcome) : AgendaBlind (deliver o) := by
  intro l s
  unfold deliver
  rw [withAgenda_ctl]
  cases s.ctl with
  | rrAttempt => exact agendaBlind_attemptEnd o l s
  | _ => rfl

theorem agendaBlind_applyRsm (st : RsmStep) : AgendaBlind (applyRsm st) := by
  intro l s
  unfold applyRsm
  cases st.outcome with
  | none => rfl
  | some o => exact agendaBlind_deliver o l (record st.events { s with rsm := st.rsm })

theorem agendaBlind_byteStep (b : Byte) : AgendaBlind (byteStep b) :=
  fun l s => agendaBlind_applyRsm (rsmByte b s.rsm) l s

theorem agendaBlind_execDequeue : AgendaBlind execDequeue := by
  intro l s
  unfold execDequeue
  rw [withAgenda_queue]
  split_ifs <;> rfl

theorem agendaBlind_execPollIndication (tm : BitVec 32) : AgendaBlind (execPollIndication tm) := by
  intro l s
  unfold execPollIndication
  rw [withAgenda_queue]
  split_ifs
  · exact agendaBlind_startReceive _ _ _ l (pinWriteWake false s)
  · rfl

theorem agendaBlind_execTransaction (c : Byte) (p : List Byte) (tm : BitVec 32) (n : Option Byte) (m : Byte)
    (st : Bool) : AgendaBlind (execTransaction c p tm n m st) := by
  intro l s
  unfold execTransaction
  rw [withAgenda_now, withAgenda_params]
  split_ifs
  · rfl
  · cases addTime s.env.now s.params.tWake <;> rfl

/-- The meaning of an instruction of either port. -/
theorem agendaBlind_exec (i : Instr) : AgendaBlind (exec i) := by
  cases hcode : i.codeByte with
  | some b =>
    rw [funext (exec_of_codeByte hcode)]
    exact agendaBlind_byteStep b
  | none =>
    cases i with
    | encode c p =>
      intro l s
      show execEncode c p _ = onNext _ (execEncode c p s)
      unfold execEncode
      split_ifs <;> rfl
    | check d => exact fun _ _ => rfl
    | send c p =>
      intro l s
      show execSend c p _ = onNext _ (execSend c p s)
      unfold execSend
      split_ifs <;> rfl
    | receive tm e => exact agendaBlind_startReceive _ _ _
    | requestReply c tm n m st =>
      exact fun l s => agendaBlind_nextOrFinish l { s with corr := corrStart c tm n m st false }
    | dequeue => exact agendaBlind_execDequeue
    | pollIndication tm => exact agendaBlind_execPollIndication tm
    | transaction c p tm n m st => exact agendaBlind_execTransaction c p tm n m st
    | wakeup | sleep => exact fun _ _ => rfl
    | moduleReset => exact fun l s => agendaBlind_moduleResetPhase _ _ _ l s
    | _ => cases hcode

theorem agendaBlind_illegalStep (e : DecodeError) : AgendaBlind (illegalStep e) := by
  intro l s
  unfold illegalStep
  split_ifs <;> rfl

theorem agendaBlind_runOp : AgendaBlind runOp := by
  intro l s
  unfold runOp
  rw [withAgenda_host]
  cases decodeOp s.host.curOp with
  | ok i => exact agendaBlind_exec i l s
  | error e => exact agendaBlind_illegalStep e l s

theorem agendaBlind_idlePhaseStep : AgendaBlind idlePhaseStep := by
  intro l s
  unfold idlePhaseStep
  rw [withAgenda_host, acceptStep_withAgenda]
  split_ifs
  · exact agendaBlind_runOp l s
  · rfl

theorem agendaBlind_timeoutStep : AgendaBlind timeoutStep := by
  intro l s
  unfold timeoutStep
  rw [withAgenda_now, withinOverrun_withAgenda, withAgenda_rsm]
  split_ifs
  · exact agendaBlind_applyRsm _ l s
  · rfl

theorem agendaBlind_receiveWait : AgendaBlind receiveWait := by
  intro l s
  unfold receiveWait
  rw [timeoutEnabled_withAgenda]
  split_ifs
  · exact agendaBlind_timeoutStep l s
  · rfl

theorem agendaBlind_receivePhaseStep : AgendaBlind receivePhaseStep := by
  intro l s
  unfold receivePhaseStep
  rw [countedHead_withAgenda, withAgenda_rsm]
  split_ifs
  · rfl
  · cases countedHead s with
    | none => exact agendaBlind_receiveWait l s
    | some b =>
      dsimp only
      rw [receiveByte_eq, receiveByte_eq]
      exact agendaBlind_byteStep b l (rxPop s)

theorem agendaBlind_transactionTransmit : AgendaBlind transactionTransmit := by
  intro l s
  unfold transactionTransmit
  rw [withAgenda_host]
  split
  · rename_i c p tm n m st _
    exact agendaBlind_nextOrFinish l { txWrite (frame c p) s with corr := corrStart c tm n m st true }
  · rfl

theorem whenReached_withAgenda {go : State → Host.Outcome State Fault Refusal} (hgo : AgendaBlind go) (u : Time)
    (l : List Turn) (s : State) :
    whenReached u go (withAgenda l s) = onNext (withAgenda l) (whenReached u go s) := by
  unfold whenReached
  rw [withAgenda_now]
  split_ifs
  · exact hgo l s
  · rfl

theorem agendaBlind_moduleResetRelease : AgendaBlind moduleResetRelease :=
  fun l s => agendaBlind_moduleResetPhase _ s.params.tSettle _ l s

theorem agendaBlind_coreStep : AgendaBlind coreStep := by
  intro l s
  unfold coreStep
  rw [withAgenda_ctl, withAgenda_twUntil, withAgenda_mrUntil]
  cases s.ctl with
  | idle => exact agendaBlind_idlePhaseStep l s
  | receive | rrAttempt | pollReceive => exact agendaBlind_receivePhaseStep l s
  | trWake => exact whenReached_withAgenda agendaBlind_transactionTransmit _ l s
  | mrLow => exact whenReached_withAgenda agendaBlind_moduleResetRelease _ l s
  | mrSettle => exact whenReached_withAgenda (go := moduleResetDone) (fun _ _ => rfl) _ l s

/-- The Core's turn on the agenda is its step with the agenda empty. -/
theorem step_core_turn (more : List Turn) (s : State) :
    step { s with env.agenda := .core :: more } =
      onNext (withAgenda more) (step { s with env.agenda := [] }) := by
  unfold step
  dsimp only
  split_ifs
  · exact agendaBlind_coreStep more { s with env.agenda := [] }
  · rfl

/-! ## Issue and hold (R121) -/

theorem step_presents {s : State} {op : HostOp} {more : List Turn} (hok : s.params.ok = true)
    (hwf : op.wf = true) (hagenda : s.env.agenda = .host op :: more) :
    step s = .next { s with env.agenda := more, env.hostQueue := s.env.hostQueue ++ [op] } := by
  rw [StateInvariants.step_of_agenda_cons hok hagenda]
  exact if_pos hwf

/-- With nothing in progress the Core accepts, or waits for an operation (R121). -/
theorem step_of_free {s : State} (hnext : coreNext s) (hctl : s.ctl = .idle) (hfree : s.host.busy = false) :
    step s = .next (acceptStep s) := by
  rw [StateInvariants.step_of_coreNext hnext, coreStep, hctl]
  exact if_neg (Bool.eq_false_iff.1 hfree)

/-- Settles O9: the Host's turn, the Core's two steps with nothing in progress, what an operation in progress holds,
and the Core's turn on the agenda. -/
theorem presentedOperationHeld : Obligations.PresentedOperationHeld := by
  unfold Obligations.PresentedOperationHeld
  refine ⟨fun s op more => step_presents, fun s op more hnext hctl hfree hqueue => ?accept,
    fun s t => step_holds, fun s hnext hctl hfree hqueue => ?wait, fun s more => ?turn⟩
  case accept => rw [step_of_free hnext hctl hfree, acceptStep, hqueue]
  case wait => rw [step_of_free hnext hctl hfree, acceptStep, hqueue]
  case turn =>
    dsimp only
    rw [step_core_turn]
    exact ⟨fun t h => by rw [h]; rfl, fun r h => by rw [h]; rfl, fun f h => by rw [h]; rfl⟩

end PresentedOperations
end Sys2Proof
end

section
/-! The CODE byte and the frame around it (R112, R114, R117, R186 to R190): which named codes HUNT_CODE accepts,
and what a frame that the RSM hands over is. -/

namespace Sys2Proof
namespace FrameCodes

open Machine Claims CodeMap

/-! ## The acceptance test (R186) -/

theorem isIndication_iff (b : Byte) : isIndication b = true ↔ b ∈ Config.indSet := List.contains_iff_mem

theorem isKnownReply_iff (b : Byte) : isKnownReply b = true ↔ b ∈ Config.replySet := by
  rw [mem_replySet_iff, isKnownReply, Bool.and_eq_true, List.contains_iff_mem]

theorem codeOk_some_iff (b c : Byte) : codeOk b (some c) = true ↔ b = c ∨ b ∈ Config.indSet := by
  rw [codeOk, Bool.or_eq_true, beq_iff_eq, isIndication_iff]

theorem codeOk_none_iff (b : Byte) : codeOk b none = true ↔ b ∈ Config.replySet ∨ b ∈ Config.indSet := by
  rw [codeOk, Bool.or_eq_true, isKnownReply_iff, isIndication_iff]

theorem codeOk_of_mem_cmdSet {b : Byte} (h : b ∈ Config.cmdSet) (e : Option Byte) :
    codeOk b e = true ↔ e = some b := by
  have hind : b ∉ Config.indSet := cmdSet_disjoint_indSet b h
  have hreply : b ∉ Config.replySet := fun hr => (replySet_disjoint b hr).2 h
  cases e with
  | none => simp only [codeOk_none_iff, hind, hreply, or_self, reduceCtorEq]
  | some c => rw [codeOk_some_iff, or_iff_left hind, Option.some_inj, eq_comm]

theorem codeOk_of_mem_replySet {b : Byte} (h : b ∈ Config.replySet) (e : Option Byte) :
    codeOk b e = true ↔ e = some b ∨ e = none := by
  have hind : b ∉ Config.indSet := (replySet_disjoint b h).1
  cases e with
  | none => simp only [codeOk_none_iff, h, true_or, or_true]
  | some c => rw [codeOk_some_iff, or_iff_left hind, or_iff_left nofun, Option.some_inj, eq_comm]

/-! ## The CODE byte in HUNT_CODE (R186) -/

theorem record_nil (s : State) : record [] s = s := by
  rw [record, List.append_nil]

theorem byteStep_accepts {s : State} {b : Byte} (hp : s.rsm.phase = .huntCode) (hsync : b ≠ Config.sync)
    (hok : codeOk b s.rsm.expected = true) :
    byteStep b s = .next { s with rsm.code := b, rsm.sum := s.rsm.sum + b, rsm.phase := .readLen } := by
  have hstep : rsmByte b s.rsm =
      { rsm := { s.rsm with code := b, sum := s.rsm.sum + b, phase := .readLen }, events := [],
        outcome := none } := by
    rw [rsmByte, hp]
    exact (if_neg hsync).trans (if_pos hok)
  rw [byteStep, hstep]
  exact congrArg Host.Outcome.next (record_nil _)

theorem byteStep_resynchronizes {s : State} {b : Byte} (hp : s.rsm.phase = .huntCode) (hsync : b ≠ Config.sync)
    (hok : ¬ codeOk b s.rsm.expected = true) :
    byteStep b s = .next (noted [.unexpectedByte b] { s with rsm.phase := .huntSync }) := by
  have hstep : rsmByte b s.rsm =
      { rsm := { s.rsm with phase := .huntSync }, events := [.unexpectedByte b], outcome := none } := by
    rw [rsmByte, hp]
    exact (if_neg hsync).trans (if_neg hok)
  rw [byteStep, hstep]
  rfl

/-- The byte of an instruction of a list whose bytes are those of a code set. -/
theorem mem_of_codeByte {is : List Instr} {bs : List Byte} {i : Instr} {b : Byte}
    (hbytes : is.map Instr.codeByte = bs.map some) (hi : i ∈ is) (hb : i.codeByte = some b) : b ∈ bs := by
  have hmem : some b ∈ bs.map some := hbytes ▸ List.mem_map.2 ⟨i, hi, hb⟩
  simpa using hmem

/-- Settles O22: of the codes it may expect, a command code is only its own. -/
theorem commandCodesInHuntCode : Obligations.CommandCodesInHuntCode := by
  unfold Obligations.CommandCodesInHuntCode
  intro i hi b s hb hp
  have hcmd : b ∈ Config.cmdSet := mem_of_codeByte rfl hi hb
  have hsync : b ≠ Config.sync := fun e => sync_not_mem_cmdSet (e ▸ hcmd)
  have hok := codeOk_of_mem_cmdSet hcmd s.rsm.expected
  rw [exec_of_codeByte hb]
  exact ⟨fun he => byteStep_accepts hp hsync (hok.2 he),
    fun he => byteStep_resynchronizes hp hsync (mt hok.1 he)⟩

/-- Settles O23: a reply code is acceptable as the expected one, or where any reply is. -/
theorem replyCodesInHuntCode : Obligations.ReplyCodesInHuntCode := by
  unfold Obligations.ReplyCodesInHuntCode
  intro i hi b s hb hp
  have hreply : b ∈ Config.replySet := mem_of_codeByte rfl hi hb
  have hsync : b ≠ Config.sync := fun e => sync_not_mem_replySet (e ▸ hreply)
  have hok := codeOk_of_mem_replySet hreply s.rsm.expected
  rw [exec_of_codeByte hb]
  exact ⟨fun he => byteStep_accepts hp hsync (hok.2 he),
    fun hsome hnone => byteStep_resynchronizes hp hsync (mt hok.1 (not_or.2 ⟨hsome, hnone⟩))⟩

/-! ## A frame handed over (R114, R188, R190) -/

theorem checksum_eq_neg (l : List Byte) : checksum l = -sum8 l := by
  calc checksum l = (sum8 l ^^^ BitVec.allOnes 8) + 1#8 := BitVec.and_allOnes
    _ = -sum8 l := by rw [BitVec.xor_allOnes, BitVec.neg_eq_not_add]

/-- A frame sums to zero (R114). -/
theorem sum8_frame (c : Byte) (p : List Byte) : sum8 (frame c p) = 0#8 := by
  rw [frame, StateInvariants.sum8_concat, checksum_eq_neg, BitVec.add_right_neg]

/-- The last body byte finds the payload complete, and is not stored (R188). -/
theorem assembled_of_last_byte (b : Byte) {r : Rsm} (hcount : r.count = r.len.setWidth 9) :
    assembled (bodyByte b r) = { code := r.code, length := r.len, payload := r.bodySoFar } := by
  have hlen : r.count.toNat = r.len.toNat := by rw [hcount, BitVec.toNat_setWidth]; omega
  simp only [assembled, bodyByte, Rsm.bodySoFar, hlen, lt_irrefl, if_false]

/-- The header of a frame with the payload read is the three bytes read (R110). -/
theorem frameHeader_assembled {r : Rsm} (hcount : r.count = r.len.setWidth 9) :
    frameHeader r.code r.bodySoFar = [Config.sync, r.code, r.len] := by
  have hlen : r.count.toNat = r.len.toNat := by rw [hcount, BitVec.toNat_setWidth]; omega
  have hbody : r.bodySoFar.length = r.len.toNat := by
    rw [Rsm.bodySoFar, length_memRead _ _ _ (by omega), hlen]
  rw [frameHeader, hbody, BitVec.ofNat_toNat, BitVec.setWidth_eq]

/-- Settles O29: at the last body byte, the running sum of sound registers is that of the frame before it. -/
theorem acceptedFramesAreValid : Obligations.AcceptedFramesAreValid := by
  unfold Obligations.AcceptedFramesAreValid
  intro b r f ind hs hout
  rcases rsmByte_outcome b r with ⟨hnone, -⟩ | ⟨hp, -, hzero, hlast, hframe⟩
  · rw [hnone] at hout
    cases hout
  rw [Rsm.Sound, hp] at hs
  obtain ⟨hsync, hok, -, hsum⟩ := hs
  have hcount : r.count = r.len.setWidth 9 := add_right_cancel hlast
  have hwf := assembled_wf (bodyByte b r)
  rw [assembled_of_last_byte b hcount] at hframe hwf
  rw [hframe] at hout
  cases hout
  have hind : isIndication r.code = decide (r.code ∈ Config.indSet) :=
    Bool.eq_iff_iff.2 ((isIndication_iff _).trans decide_eq_true_iff.symm)
  refine ⟨hwf, hsync, hok, hind, ?_, sum8_frame _ _⟩
  rw [checksum_eq_neg, frameHeader_assembled hcount, ← hsum]
  exact eq_neg_of_add_eq_zero_right hzero

end FrameCodes
end Sys2Proof
end

section
/-! The Frame Codec (spec/40_codec.md): the checksum's arithmetic (R150), and ENCODE, CHECK and SEND, each said
once for the payloads that fit a frame and once for those that do not (R151 to R159). -/

namespace Sys2Proof
namespace FrameCodec

open Machine Claims FrameCodes

/-! ## The checksum's arithmetic (R150) -/

theorem toNat_sum8 (l : List Byte) : (sum8 l).toNat = (l.map BitVec.toNat).sum % 256 := by
  induction l with
  | nil => rfl
  | cons b l ih => rw [sum8, BitVec.toNat_add, ih, Nat.add_mod_mod, List.map_cons, List.sum_cons]

theorem sum8_eq_zero_iff (l : List Byte) : sum8 l = 0#8 ↔ (l.map BitVec.toNat).sum % 256 = 0 := by
  rw [← toNat_sum8, BitVec.toNat_eq]
  rfl

/-- Settles O10: the checksum is the negated sum. -/
theorem checksumArithmetic : Obligations.ChecksumArithmetic := by
  unfold Obligations.ChecksumArithmetic
  intro l
  refine ⟨toNat_sum8 l, rfl, ?_, ?_, ?_⟩
  · rw [checksum_eq_neg, BitVec.toNat_neg]
  · rw [checksum_eq_neg]
    exact neg_eq_zero
  · rw [StateInvariants.sum8_concat, checksum_eq_neg, BitVec.add_right_neg]

/-! ## The operations -/

/-- An instruction's own encoding carries the selector of its header (R120, R122). -/
theorem hasSelector_of_header {i : Instr} {h : Header} {sel : Byte} (hh : i.header = some h) (hop : h.op = sel) :
    hasSelector i sel := by
  refine ⟨{ header := h.toBits, data := i.operandBytes }, ?_, ?_⟩
  · rw [encodeOp, hh]
    rfl
  · rw [Header.ofBits_toBits, hop]

theorem payloadTooLarge_iff {p : List Byte} : payloadTooLarge p = true ↔ 255 < p.length := decide_eq_true_iff

theorem exec_encode_of_fits {p : List Byte} (hp : p.length ≤ 255) (c : Byte) (s : State) :
    exec (.encode c p) s = .next (ended { statusOnly 0x00#8 with out := frame c p } s) :=
  if_neg (Bool.eq_false_iff.1 (payloadTooLarge_eq_false.2 hp))

theorem exec_send_of_fits {p : List Byte} (hp : p.length ≤ 255) (c : Byte) (s : State) :
    exec (.send c p) s =
      .next (ended (statusOnly 0x00#8) { s with env.tx := s.env.tx ++ frame c p }) :=
  if_neg (Bool.eq_false_iff.1 (payloadTooLarge_eq_false.2 hp))

theorem exec_check (d : List Byte) (s : State) :
    exec (.check d) s = .next (ended { statusOnly 0x00#8 with checkOk := sum8 d == 0#8 } s) := rfl

/-- Settles O11: a frame sums to zero. -/
theorem encodedFramesPassCheck : Obligations.EncodedFramesPassCheck := by
  unfold Obligations.EncodedFramesPassCheck
  intro c p s _
  rw [exec_check, sum8_frame]
  rfl

/-- Settles O12: the frame's last byte is its checksum. -/
theorem encodeReturnsFrame : Obligations.EncodeReturnsFrame := by
  unfold Obligations.EncodeReturnsFrame
  intro c p s hp
  exact ⟨hasSelector_of_header rfl rfl, _, sum8_frame c p, exec_encode_of_fits hp c s⟩

/-- Settles O13: the 8-bit sum is zero where the natural one is a multiple of 256. -/
theorem checkTestsTheSum : Obligations.CheckTestsTheSum := by
  unfold Obligations.CheckTestsTheSum
  intro d s
  have hok : (sum8 d == 0#8) = decide ((d.map BitVec.toNat).sum % 256 = 0) :=
    Bool.eq_iff_iff.2 (beq_iff_eq.trans ((sum8_eq_zero_iff d).trans decide_eq_true_iff.symm))
  rw [exec_check, hok]
  exact ⟨hasSelector_of_header rfl rfl, rfl⟩

/-- Settles O14: the frame's last byte is its checksum. -/
theorem sendWritesFrame : Obligations.SendWritesFrame := by
  unfold Obligations.SendWritesFrame
  intro c p s hp
  exact ⟨hasSelector_of_header rfl rfl, _, sum8_frame c p, exec_send_of_fits hp c s⟩

/-- Settles O15: each of the three operations tests the payload's length first. -/
theorem payloadTooLargeChangesOnlyResult : Obligations.PayloadTooLargeChangesOnlyResult := by
  unfold Obligations.PayloadTooLargeChangesOnlyResult
  intro c p s hp
  have hlarge : payloadTooLarge p = true := payloadTooLarge_iff.2 hp
  exact ⟨if_pos hlarge, if_pos hlarge, fun _ _ _ _ => if_pos hlarge⟩

end FrameCodec
end Sys2Proof
end

section
/-! An encoded frame on the RX stream, byte by byte through the Receive State Machine (R160, R184 to R190): no
byte of it is discarded, and the last one hands the frame over. -/

namespace Sys2Proof
namespace FrameReceive

open Machine Claims FrameCodes StateInvariants

/-- A byte step that records no event and has no outcome. -/
def silentStep (r : Rsm) : RsmStep := { rsm := r, events := [], outcome := none }

/-- The receive from `r` over the stream `rx` hands the frame over, records no event and leaves `rest`. -/
def ReturnsFrame (f : DecodedFrame) (rx rest : List (Byte × Time)) (r : Rsm) : Prop :=
  ∃ r', bigStep rx r =
    { outcome := .frame f (isIndication f.code), rx := rest, rsm := r', events := [] }

/-! ## The byte steps of a frame (R184 to R190) -/

theorem rsmByte_sync {r : Rsm} (hp : r.phase = .huntSync) :
    rsmByte Config.sync r = silentStep { r with sum := Config.sync, phase := .huntCode } := by
  rw [rsmByte, hp]
  rfl

theorem rsmByte_code {r : Rsm} {c : Byte} (hp : r.phase = .huntCode) (hsync : c ≠ Config.sync)
    (hok : codeOk c r.expected = true) :
    rsmByte c r = silentStep { r with code := c, sum := r.sum + c, phase := .readLen } := by
  rw [rsmByte, hp]
  exact (if_neg hsync).trans (if_pos hok)

theorem rsmByte_len {r : Rsm} (n : Byte) (hp : r.phase = .readLen) :
    rsmByte n r =
      silentStep { r with len := n, sum := r.sum + n, count := 0#9, phase := .readBody } := by
  rw [rsmByte, hp]
  rfl

/-- The test for the last body byte, by the payload bytes counted before it (R188). -/
theorem bodyByte_last_iff (b : Byte) (r : Rsm) :
    (bodyByte b r).count = (bodyByte b r).len.setWidth 9 + 1#9 ↔ r.count.toNat = r.len.toNat := by
  change r.count + 1#9 = r.len.setWidth 9 + 1#9 ↔ _
  rw [add_left_inj, BitVec.toNat_eq, BitVec.toNat_setWidth, Nat.mod_eq_of_lt (by omega)]

theorem rsmByte_payload {r : Rsm} (b : Byte) (hp : r.phase = .readBody)
    (hlt : r.count.toNat < r.len.toNat) : rsmByte b r = silentStep (bodyByte b r) := by
  rw [rsmByte, hp]
  exact if_neg (mt (bodyByte_last_iff b r).1 hlt.ne)

theorem rsmByte_checksum {r : Rsm} {b : Byte} (hp : r.phase = .readBody)
    (hlast : r.count.toNat = r.len.toNat) (hzero : r.sum + b = 0#8) :
    rsmByte b r =
      { rsm := { bodyByte b r with phase := .idle }, events := [],
        outcome := some (.frame { code := r.code, length := r.len, payload := r.bodySoFar }
          (isIndication r.code)) } := by
  have hcount := (bodyByte_last_iff b r).2 hlast
  rw [← assembled_of_last_byte b (add_right_cancel hcount), rsmByte, hp]
  exact (if_pos hcount).trans (if_pos hzero)

/-! ## The bytes of a frame in sequence (R160, R197) -/

theorem counted_of_lt {r : Rsm} {b : Byte} {a : Time} (h : a < r.deadline) : counted r (b, a) = true :=
  decide_eq_true h

theorem returnsFrame_of_silent {f : DecodedFrame} {b : Byte} {a : Time} {rx rest : List (Byte × Time)}
    {r r' : Rsm} (hcounted : a < r.deadline) (hstep : rsmByte b r = silentStep r')
    (h : ReturnsFrame f rx rest r') : ReturnsFrame f ((b, a) :: rx) rest r := by
  obtain ⟨r'', h⟩ := h
  refine ⟨r'', ?_⟩
  rw [bigStep, if_pos (counted_of_lt hcounted), hstep]
  change { bigStep rx r' with events := [] ++ (bigStep rx r').events } = _
  rw [h, List.nil_append]

theorem returnsFrame_of_checksum {b : Byte} {a : Time} {rest : List (Byte × Time)} {r : Rsm}
    (hp : r.phase = .readBody) (hlast : r.count.toNat = r.len.toNat) (hzero : r.sum + b = 0#8)
    (hcounted : a < r.deadline) :
    ReturnsFrame { code := r.code, length := r.len, payload := r.bodySoFar } ((b, a) :: rest) rest r := by
  refine ⟨{ bodyByte b r with phase := .idle }, ?_⟩
  rw [bigStep, if_pos (counted_of_lt hcounted), rsmByte_checksum hp hlast hzero]

/-- The rest of a body, from any point of the payload on: the bytes fill the payload up, and the whole frame
sums to zero. -/
theorem returnsFrame_of_body {q : List Byte} {cs : Byte} {bs rest : List (Byte × Time)} {r : Rsm}
    (hp : r.phase = .readBody) (hlen : r.count.toNat + q.length = r.len.toNat)
    (hzero : r.sum + sum8 (q ++ [cs]) = 0#8) (hbytes : bs.map Prod.fst = q ++ [cs])
    (hcounted : ∀ x ∈ bs, x.2 < r.deadline) :
    ReturnsFrame { code := r.code, length := r.len, payload := r.bodySoFar ++ q } (bs ++ rest) rest r := by
  induction q generalizing bs r with
  | nil =>
    obtain ⟨⟨_, a⟩, rfl, rfl⟩ := List.map_eq_singleton_iff.1 hbytes
    rw [sum8_concat, sum8, BitVec.zero_add] at hzero
    rw [List.append_nil]
    exact returnsFrame_of_checksum hp hlen hzero (hcounted _ (List.mem_singleton_self _))
  | cons b q ih =>
    obtain ⟨⟨b, a⟩, bs, rfl, rfl, htail⟩ := List.map_eq_cons_iff.1 hbytes
    obtain ⟨ha, hbs⟩ := List.forall_mem_cons.1 hcounted
    rw [List.length_cons] at hlen
    have hlt : r.count.toNat < r.len.toNat := by omega
    have hcount : (r.count + 1#9).toNat + q.length = r.len.toNat := by
      rw [BitVec.toNat_add, BitVec.toNat_ofNat]
      omega
    have hsum : r.sum + b + sum8 (q ++ [cs]) = 0#8 := (BitVec.add_assoc _ _ _).trans hzero
    have hrest := ih (r := bodyByte b r) hp hcount hsum htail hbs
    rw [bodySoFar_bodyByte b hlt, List.append_assoc] at hrest
    exact returnsFrame_of_silent ha (rsmByte_payload b hp hlt) hrest

/-- The running sum of a frame's header (R46) and its body cancel. -/
theorem sum8_header_body (c : Byte) (p : List Byte) :
    Config.sync + c + BitVec.ofNat 8 p.length + sum8 (p ++ [checksum (frameHeader c p ++ p)]) = 0#8 := by
  have hheader : sum8 (frameHeader c p) = Config.sync + c + BitVec.ofNat 8 p.length := by
    simp only [frameHeader, sum8, BitVec.add_zero, BitVec.add_assoc]
  rw [← hheader, ← sum8_append, ← List.append_assoc]
  exact sum8_frame c p

/-- A frame read from its first byte: the header sets the registers that the body's bytes count on. -/
theorem returnsFrame_of_frame {c : Byte} {p : List Byte} {bs rest : List (Byte × Time)} {r : Rsm}
    (hlen : p.length ≤ 255) (hsync : c ≠ Config.sync) (hok : codeOk c r.expected = true)
    (hp : r.phase = .huntSync) (hbytes : bs.map Prod.fst = frame c p) (hcounted : ∀ x ∈ bs, x.2 < r.deadline) :
    ReturnsFrame { code := c, length := BitVec.ofNat 8 p.length, payload := p } (bs ++ rest) rest r := by
  obtain ⟨⟨_, a₁⟩, bs, rfl, rfl, hfromCode⟩ := List.map_eq_cons_iff.1 hbytes
  obtain ⟨⟨c, a₂⟩, bs, rfl, rfl, hfromLen⟩ := List.map_eq_cons_iff.1 hfromCode
  obtain ⟨⟨_, a₃⟩, bs, rfl, rfl, hpayload⟩ := List.map_eq_cons_iff.1 hfromLen
  simp only [List.forall_mem_cons] at hcounted
  obtain ⟨ha₁, ha₂, ha₃, hbody⟩ := hcounted
  refine returnsFrame_of_silent ha₁ (rsmByte_sync hp) ?_
  refine returnsFrame_of_silent ha₂ (rsmByte_code rfl hsync hok) ?_
  refine returnsFrame_of_silent ha₃ (rsmByte_len _ rfl) ?_
  refine returnsFrame_of_body rfl ?_ (sum8_header_body c p) hpayload hbody
  change 0 + p.length = (BitVec.ofNat 8 p.length).toNat
  rw [Nat.zero_add, BitVec.toNat_ofNat, Nat.mod_eq_of_lt (by omega)]

theorem isIndication_eq_decide (b : Byte) : isIndication b = decide (b ∈ Config.indSet) :=
  Bool.eq_iff_iff.2 ((isIndication_iff b).trans decide_eq_true_iff.symm)

/-- Settles O28: the bytes of the frame are taken one by one, and its last byte hands it over. -/
theorem codecAndRsmAgree : Obligations.CodecAndRsmAgree := by
  unfold Obligations.CodecAndRsmAgree
  intro c p bs rest r hlen hsync hok hp hbytes hcounted
  obtain ⟨r', h⟩ := returnsFrame_of_frame hlen hsync hok hp hbytes hcounted (rest := rest)
  rw [h, isIndication_eq_decide]
  exact ⟨rfl, rfl, rfl⟩

end FrameReceive
end Sys2Proof
end

section
/-! The byte steps of the Receive State Machine put into the state (R184 to R190): SYNC, filler and noise, the CODE
byte, the length, and the body with its checksum. -/

namespace Sys2Proof
namespace ByteSteps

open Machine Claims FrameCodes FrameReceive

/-! ## A byte step in the state (R183, R195) -/

theorem byteStep_of_no_outcome {s : State} {b : Byte} {r : Rsm} {es : List Event}
    (h : rsmByte b s.rsm = { rsm := r, events := es, outcome := none }) :
    byteStep b s = .next (noted es { s with rsm := r }) := by
  rw [byteStep, h]
  rfl

theorem byteStep_of_silent {s : State} {b : Byte} {r : Rsm} (h : rsmByte b s.rsm = silentStep r) :
    byteStep b s = .next { s with rsm := r } := by
  rw [byteStep, h]
  exact congrArg Host.Outcome.next (record_nil _)

theorem byteStep_of_outcome {s : State} {b : Byte} {r : Rsm} {o : RsmOutcome}
    (h : rsmByte b s.rsm = { rsm := r, events := [], outcome := some o }) :
    byteStep b s = deliver o { s with rsm := r } := by
  rw [byteStep, h]
  exact congrArg (deliver o) (record_nil _)

/-! ## HUNT_SYNC and HUNT_CODE (R184 to R186) -/

theorem rsmByte_noise {r : Rsm} {b : Byte} (hp : r.phase = .huntSync) (hsync : b ≠ Config.sync) :
    rsmByte b r = { rsm := r, events := [.discard b], outcome := none } := by
  rw [rsmByte, hp]
  exact if_neg hsync

theorem rsmByte_filler {r : Rsm} (hp : r.phase = .huntCode) :
    rsmByte Config.sync r = { rsm := r, events := [.filler], outcome := none } := by
  rw [rsmByte, hp]
  rfl

/-- Settles O21: the two hunting phases on 0xAA, and HUNT_SYNC on any other byte. -/
theorem syncAndFillerSteps : Obligations.SyncAndFillerSteps := by
  unfold Obligations.SyncAndFillerSteps
  refine ⟨fun s hp => ?sync, fun s hp => ?filler, fun b s hp hsync => ?noise⟩
  case sync => exact byteStep_of_silent (rsmByte_sync hp)
  case filler => exact byteStep_of_no_outcome (rsmByte_filler hp)
  case noise => exact byteStep_of_no_outcome (rsmByte_noise hp hsync)

/-- Settles O24: an indication code is acceptable whatever is expected. -/
theorem indicationCodesInHuntCode : Obligations.IndicationCodesInHuntCode := by
  unfold Obligations.IndicationCodesInHuntCode
  intro i hi b s hb hp
  have hind : b ∈ Config.indSet := mem_of_codeByte rfl hi hb
  have hsync : b ≠ Config.sync := fun e => CodeMap.sync_not_mem_indSet (e ▸ hind)
  have hok : codeOk b s.rsm.expected = true := by
    cases s.rsm.expected with
    | none => exact (codeOk_none_iff b).2 (.inr hind)
    | some c => exact (codeOk_some_iff b c).2 (.inr hind)
  rw [exec_of_codeByte hb]
  exact byteStep_accepts hp hsync hok

/-- The acceptance test with the code sets and the expected code written out (R112, R186). -/
theorem codeOk_iff (b : Byte) (e : Option Byte) :
    codeOk b e = true ↔
      (∃ c, e = some c ∧ (b = c ∨ b ∈ Config.indSet)) ∨
      (e = none ∧ ((b.getLsbD 7 = true ∧ b &&& 0x7F#8 ∈ Config.cmdSet) ∨ b ∈ Config.indSet)) := by
  cases e with
  | none => simp [codeOk_none_iff, CodeMap.mem_replySet_iff]
  | some c => simp [codeOk_some_iff]

/-- Settles O25: HUNT_CODE accepts what the acceptance test does, and resynchronizes on the rest. -/
theorem huntCodeStep : Obligations.HuntCodeStep := by
  unfold Obligations.HuntCodeStep
  intro b s hp hsync
  dsimp only
  rw [← codeOk_iff]
  exact ⟨byteStep_accepts hp hsync, byteStep_resynchronizes hp hsync⟩

/-! ## READ_LEN and READ_BODY (R187 to R190) -/

/-- A write inside the buffer (R80). -/
theorem memWrite_of_lt (buf : Vector Byte 255) {k : Nat} (b : Byte) (h : k < 255) :
    memWrite buf k b = buf.set k b h := by
  rw [memWrite]
  ext j hj
  rw [Vector.getElem_setIfInBounds, Vector.getElem_set]

theorem bodyByte_of_payload (b : Byte) {r : Rsm} (hlt : r.count.toNat < r.len.toNat)
    (hbound : r.count.toNat < 255) :
    bodyByte b r =
      { r with sum := r.sum + b, count := r.count + 1#9, buf := r.buf.set r.count.toNat b hbound } := by
  rw [bodyByte, if_pos hlt, memWrite_of_lt _ _ hbound]

/-- The checksum byte is counted and summed, and not stored (R188). -/
theorem bodyByte_of_checksum (b : Byte) {r : Rsm} (hlast : r.count.toNat = r.len.toNat) :
    bodyByte b r = { r with sum := r.sum + b, count := r.count + 1#9 } := by
  rw [bodyByte, if_neg hlast.not_lt]

/-- A checksum that fails restarts the RSM (R189). -/
theorem rsmByte_mismatch {r : Rsm} {b : Byte} (hp : r.phase = .readBody)
    (hlast : r.count.toNat = r.len.toNat) (hsum : r.sum + b ≠ 0#8) :
    rsmByte b r =
      { rsm := { bodyByte b r with phase := .huntSync }, events := [.checksumMismatch], outcome := none } := by
  rw [rsmByte, hp]
  exact (if_pos ((bodyByte_last_iff b r).2 hlast)).trans (if_neg hsum)

/-- Settles O26: the length, then the body byte by its place: payload, or checksum with the sum's two outcomes. -/
theorem lengthAndBodySteps : Obligations.LengthAndBodySteps := by
  unfold Obligations.LengthAndBodySteps
  refine ⟨fun b s hp => byteStep_of_silent (rsmByte_len b hp), fun b s hp _ => ?_⟩
  refine ⟨fun hlt => ?payload, fun hlast hsum => ?mismatch, fun hlast hzero => ?accept⟩
  case payload =>
    rw [byteStep_of_silent (rsmByte_payload b hp hlt), bodyByte_of_payload b hlt]
  case mismatch =>
    rw [byteStep_of_no_outcome (rsmByte_mismatch hp hlast hsum), bodyByte_of_checksum b hlast]
  case accept =>
    rw [byteStep_of_outcome (rsmByte_checksum hp hlast hzero), bodyByte_of_checksum b hlast,
      isIndication_eq_decide, Rsm.bodySoFar, hlast]
    rfl

end ByteSteps
end Sys2Proof
end

section
/-! A receive from its start to its end (R180 to R183, R191, R195): RECEIVE starts it, the Core takes a counted byte
or reports the timeout, and a bare receive ends with the outcome as its result. -/

namespace Sys2Proof
namespace ReceiveTurns

open Machine Claims FrameCodes StateInvariants

/-! ## The start and the end (R180 to R182, R195, R280) -/

/-- Settles O33: the deadline is representable, so the receive starts. -/
theorem receiveStarts : Obligations.ReceiveStarts := by
  unfold Obligations.ReceiveStarts
  intro tm e s hfits
  refine ⟨FrameCodec.hasSelector_of_header rfl rfl, ?_⟩
  have hdeadline : addTime s.env.now (timeoutTime tm) = some (s.env.now + tm.setWidth 64) :=
    addTime_eq_some.2 ⟨by rwa [toNat_timeoutTime], rfl⟩
  change startReceive (timeoutTime tm) e .receive s = _
  rw [startReceive, hdeadline]
  rfl

theorem deliver_of_bare {s : State} (hctl : s.ctl = .receive ∨ s.ctl = .pollReceive) (o : RsmOutcome) :
    deliver o s = .next (finishReceive o s) := by
  rw [deliver]
  rcases hctl with hctl | hctl <;> rw [hctl]

/-- Settles O35: in both phases the outcome becomes the result. -/
theorem bareReceiveEnds : Obligations.BareReceiveEnds := by
  unfold Obligations.BareReceiveEnds
  exact fun s hctl => ⟨fun f ind => deliver_of_bare hctl (.frame f ind), deliver_of_bare hctl .timedOut⟩

/-! ## The Core's turn while the RSM runs (R183, R191) -/

theorem coreStep_of_receiving {s : State} (hctl : s.ctl.receiving = true) : coreStep s = receivePhaseStep s := by
  rw [coreStep]
  cases hph : s.ctl with
  | receive | rrAttempt | pollReceive => rfl
  | idle | trWake | mrLow | mrSettle => rw [hph] at hctl; cases hctl

/-- A counted byte at the head is popped and gets the byte step (R183). -/
theorem step_of_counted {s : State} {b : Byte} {a : Time} {rest : List (Byte × Time)} (hnext : coreNext s)
    (hctl : s.ctl.receiving = true) (hrun : s.rsm.phase ≠ .idle) (hrx : s.env.rx = (b, a) :: rest)
    (hlt : a < s.rsm.deadline) : step s = byteStep b { s with env.rx := rest } := by
  have hhead : countedHead s = some b := countedHead_of_head (x := (b, a)) (by rw [hrx]; rfl) hlt
  rw [step_of_coreNext hnext, coreStep_of_receiving hctl, receivePhaseStep, if_neg hrun, hhead]
  change receiveByte b s = _
  rw [receiveByte_eq, rxPop, hrx, List.tail_cons]

theorem byteStep_of_idle {s : State} (b : Byte) (hp : s.rsm.phase = .idle) : byteStep b s = .next s :=
  ByteSteps.byteStep_of_silent (by rw [rsmByte, hp]; rfl)

theorem wf_of_codeByte {i : Instr} {b : Byte} (h : i.codeByte = some b) : i.wf = true := by
  cases i <;> cases h <;> rfl

/-- Settles O8: a CODE instruction is the byte step on its byte, which is what the Core does with a counted
head. -/
theorem stepRunsCodeInstruction : Obligations.StepRunsCodeInstruction := by
  unfold Obligations.StepRunsCodeInstruction
  refine ⟨fun i b s hb => ⟨exec_of_codeByte hb s, fun hp => ?_⟩,
    fun s b a rest hnext hctl hrun hrx hlt => ?_⟩
  · rw [exec_of_codeByte hb, byteStep_of_idle b hp]
  · have hstep := step_of_counted hnext hctl hrun hrx hlt
    refine ⟨hstep, fun i hi _ => ?_⟩
    have hb := CodeMap.codeByte_of_decodeCode hi
    exact ⟨wf_of_codeByte hb, by rw [hstep, exec_of_codeByte hb]⟩

/-! ## The timeout (R191, R192) -/

theorem countedHead_eq_none {s : State} (h : ∀ x, s.env.rx.head? = some x → s.rsm.deadline ≤ x.2) :
    countedHead s = none := by
  cases hhead : countedHead s with
  | none => rfl
  | some b =>
    obtain ⟨a, rest, hrx, hlt⟩ := countedHead_eq_some hhead
    exact absurd hlt (BitVec.not_lt.2 (h (b, a) (by rw [hrx]; rfl)))

theorem timeoutEnabled_iff {s : State} :
    timeoutEnabled s = true ↔
      s.rsm.phase ≠ .idle ∧ s.rsm.deadline ≤ s.env.now ∧ countedHead s = none := by
  simp [timeoutEnabled, and_assoc]

section NoCountedHead
variable {s : State} (hnext : coreNext s) (hctl : s.ctl.receiving = true) (hrun : s.rsm.phase ≠ .idle)
  (hhead : ∀ x, s.env.rx.head? = some x → s.rsm.deadline ≤ x.2)
include hnext hctl hrun hhead

theorem step_of_no_counted_head : step s = receiveWait s := by
  rw [step_of_coreNext hnext, coreStep_of_receiving hctl, receivePhaseStep, if_neg hrun, countedHead_eq_none hhead]

theorem step_of_timeout (hdue : s.rsm.deadline ≤ s.env.now)
    (hwithin : s.env.now.toNat ≤ s.rsm.deadline.toNat + s.params.tOverrun.toNat) :
    step s = deliver .timedOut (noted [.timeout s.rsm.phase] { s with rsm.phase := .idle }) := by
  have henabled : timeoutEnabled s = true :=
    timeoutEnabled_iff.2 ⟨hrun, hdue, countedHead_eq_none hhead⟩
  have hbound : withinOverrun s.env.now.toNat s = true := decide_eq_true hwithin
  rw [step_of_no_counted_head hnext hctl hrun hhead, receiveWait, if_pos henabled, timeoutStep, if_pos hbound]
  rfl

theorem step_of_early (hearly : s.env.now < s.rsm.deadline) : step s = .next s := by
  rw [step_of_no_counted_head hnext hctl hrun hhead]
  refine if_neg fun henabled => ?_
  obtain ⟨-, hdue, -⟩ := timeoutEnabled_iff.1 henabled
  exact BitVec.not_lt.2 hdue hearly

end NoCountedHead

/-- Settles O31: the timeout is due, or the Core waits. -/
theorem timeoutStep : Obligations.TimeoutStep := by
  unfold Obligations.TimeoutStep
  exact fun s hnext hctl hrun hhead =>
    ⟨step_of_timeout hnext hctl hrun hhead, step_of_early hnext hctl hrun hhead⟩

end ReceiveTurns
end Sys2Proof
end

section
/-! The big-step receive (R197): the Core's steps take the counted bytes one by one, and the step of the outcome
ends the operation. -/

namespace Sys2Proof
namespace ReceiveRuns

open Machine Claims ReceiveTurns

/-! ## The big-step form, step by step (R197) -/

theorem bigStep_of_silent {b : Byte} {a : Time} {rx : List (Byte × Time)} {r : Rsm} (hlt : a < r.deadline)
    (hnone : (rsmByte b r).outcome = none) :
    bigStep ((b, a) :: rx) r =
      { bigStep rx (rsmByte b r).rsm with
        events := (rsmByte b r).events ++ (bigStep rx (rsmByte b r).rsm).events } := by
  rw [bigStep, if_pos (FrameReceive.counted_of_lt hlt)]
  simp only [hnone]

theorem bigStep_of_outcome {b : Byte} {a : Time} {rx : List (Byte × Time)} {r : Rsm} {o : RsmOutcome}
    (hlt : a < r.deadline) (hout : (rsmByte b r).outcome = some o) :
    bigStep ((b, a) :: rx) r =
      { outcome := o, rx := rx, rsm := (rsmByte b r).rsm, events := (rsmByte b r).events } := by
  rw [bigStep, if_pos (FrameReceive.counted_of_lt hlt)]
  simp only [hout]

/-- With no counted byte at the head, the receive times out and leaves the stream (R191). -/
theorem bigStep_of_timeout {rx : List (Byte × Time)} {r : Rsm}
    (hhead : ∀ x, rx.head? = some x → r.deadline ≤ x.2) :
    bigStep rx r =
      { outcome := .timedOut, rx := rx, rsm := { r with phase := .idle }, events := [.timeout r.phase] } := by
  cases rx with
  | nil => rfl
  | cons x rx =>
    have huncounted : ¬ counted r x = true := fun h => BitVec.not_lt.2 (hhead x rfl) (of_decide_eq_true h)
    exact if_neg huncounted

/-! ## The run -/

theorem run_succ (M : Host.Core) {s t : M.State} (k : Nat) (h : M.step s = .next t) :
    M.run (k + 1) s = M.run k t := by
  simp only [Host.Core.run, h]

theorem run_one {s t : State} (h : step s = .next t) : Host.Core.run Sys2Proof.core 1 s = .next t :=
  run_succ Sys2Proof.core 0 h

/-- A host RECEIVE runs, it is the Core's turn, and where its bytes give no frame the timeout can be reported now
(R191, R192). -/
structure AwaitsOutcome (s : State) : Prop where
  turn : coreNext s
  ctl : s.ctl = .receive
  running : s.rsm.phase ≠ .idle
  due : (bigStep s.env.rx s.rsm).outcome = .timedOut →
    s.rsm.deadline ≤ s.env.now ∧ s.env.now.toNat ≤ s.rsm.deadline.toNat + s.params.tOverrun.toNat

/-- The state in which the receive of `s` has ended as the big-step form says. -/
def bigStepEnd (s : State) : State :=
  let g := bigStep s.env.rx s.rsm
  finishReceive g.outcome (noted g.events { s with rsm := g.rsm, env.rx := g.rx })

/-- The state after a silent byte. -/
def afterByte (b : Byte) (rest : List (Byte × Time)) (s : State) : State :=
  noted (rsmByte b s.rsm).events { s with rsm := (rsmByte b s.rsm).rsm, env.rx := rest }

/-- A silent byte adds its events, and changes nothing of how the receive ends (R197). -/
theorem bigStepEnd_afterByte {s : State} {b : Byte} {a : Time} {rest : List (Byte × Time)}
    (hrx : s.env.rx = (b, a) :: rest) (hlt : a < s.rsm.deadline) (hnone : (rsmByte b s.rsm).outcome = none) :
    bigStepEnd (afterByte b rest s) = bigStepEnd s := by
  simp only [bigStepEnd, hrx, bigStep_of_silent hlt hnone, afterByte, noted, List.append_assoc]

theorem AwaitsOutcome.receiving {s : State} (h : AwaitsOutcome s) : s.ctl.receiving = true := by
  rw [h.ctl]
  rfl

theorem step_bigStepEnd_of_timeout {s : State} (h : AwaitsOutcome s)
    (hhead : ∀ x, s.env.rx.head? = some x → s.rsm.deadline ≤ x.2) : step s = .next (bigStepEnd s) := by
  have hg := bigStep_of_timeout hhead
  obtain ⟨hdue, hwithin⟩ := h.due (by rw [hg])
  rw [step_of_timeout h.turn h.receiving h.running hhead hdue hwithin, bigStepEnd, hg]
  refine deliver_of_bare ?_ _
  exact .inl h.ctl

section CountedHead
variable {s : State} {b : Byte} {a : Time} {rest : List (Byte × Time)} (h : AwaitsOutcome s)
  (hrx : s.env.rx = (b, a) :: rest) (hlt : a < s.rsm.deadline)
include h hrx hlt

theorem step_bigStepEnd_of_outcome {o : RsmOutcome} (hout : (rsmByte b s.rsm).outcome = some o) :
    step s = .next (bigStepEnd s) := by
  rw [step_of_counted h.turn h.receiving h.running hrx hlt, bigStepEnd, hrx, bigStep_of_outcome hlt hout,
    byteStep, applyRsm]
  simp only [hout]
  refine deliver_of_bare ?_ _
  exact .inl h.ctl

theorem step_of_silent (hnone : (rsmByte b s.rsm).outcome = none) : step s = .next (afterByte b rest s) := by
  rw [step_of_counted h.turn h.receiving h.running hrx hlt, byteStep, applyRsm]
  simp only [hnone]
  rfl

/-- A silent byte leaves the deadline and the rest of the receive, outcome included (R43, R197). -/
theorem awaitsOutcome_afterByte (hnone : (rsmByte b s.rsm).outcome = none) :
    AwaitsOutcome (afterByte b rest s) := by
  refine ⟨h.turn, h.ctl, ?_, fun htimeout => ?_⟩
  · rcases rsmByte_outcome b s.rsm with ⟨-, hphase⟩ | ⟨-, -, -, -, hframe⟩
    · exact mt hphase.1 h.running
    · rw [hnone] at hframe
      cases hframe
  · change (rsmByte b s.rsm).rsm.deadline ≤ _ ∧ _ ≤ (rsmByte b s.rsm).rsm.deadline.toNat + _
    rw [(rsmByte_deadline b s.rsm).1]
    refine h.due ?_
    rw [hrx, bigStep_of_silent hlt hnone]
    exact htimeout

end CountedHead

/-- By induction on the RX stream: each silent byte is one step, and so is the outcome. -/
theorem run_to_bigStepEnd (rx : List (Byte × Time)) {s : State} (hrx : s.env.rx = rx) (h : AwaitsOutcome s) :
    ∃ k, Host.Core.run Sys2Proof.core k s = .next (bigStepEnd s) := by
  induction rx generalizing s with
  | nil =>
    refine ⟨1, run_one (step_bigStepEnd_of_timeout h ?_)⟩
    rw [hrx]
    exact nofun
  | cons x rest ih =>
    obtain ⟨b, a⟩ := x
    by_cases hlt : a < s.rsm.deadline
    · cases hout : (rsmByte b s.rsm).outcome with
      | some o => exact ⟨1, run_one (step_bigStepEnd_of_outcome h hrx hlt hout)⟩
      | none =>
        obtain ⟨k, hk⟩ := ih (s := afterByte b rest s) rfl (awaitsOutcome_afterByte h hrx hlt hout)
        rw [bigStepEnd_afterByte hrx hlt hout] at hk
        exact ⟨k + 1, (run_succ Sys2Proof.core k (step_of_silent h hrx hlt hout)).trans hk⟩
    · refine ⟨1, run_one (step_bigStepEnd_of_timeout h ?_)⟩
      rw [hrx]
      rintro x hx
      cases hx
      exact BitVec.not_lt.1 hlt

/-- Settles O27: from any point of the receive, its steps are those of the big-step form. -/
theorem bigStepIsTheRunOfByteSteps : Obligations.BigStepIsTheRunOfByteSteps := by
  unfold Obligations.BigStepIsTheRunOfByteSteps
  exact fun s hnext hctl hrun hdue => run_to_bigStepEnd s.env.rx rfl ⟨hnext, hctl, hrun, hdue⟩

end ReceiveRuns
end Sys2Proof
end

section
/-! The reporting bound (R191, R192): of all steps only the timeout step records a timeout, and Time is held while
it is enabled. -/

namespace Sys2Proof
namespace TimeoutReports

open Machine Claims

/-! ## Steps that record no timeout (R198) -/

/-- Events are only appended, and none of those appended is a timeout. -/
def RecordsNoTimeout (s t : State) : Prop :=
  ∃ es, t.log.events = s.log.events ++ es ∧ ∀ ph, Event.timeout ph ∉ es

theorem recordsNoTimeout_of_same {s t : State} (h : t.log.events = s.log.events) : RecordsNoTimeout s t :=
  ⟨[], by rw [h, List.append_nil], fun _ => List.not_mem_nil⟩

theorem RecordsNoTimeout.trans {s t u : State} (hst : RecordsNoTimeout s t) (htu : RecordsNoTimeout t u) :
    RecordsNoTimeout s u := by
  obtain ⟨es, hes, hnone⟩ := hst
  obtain ⟨es', hes', hnone'⟩ := htu
  refine ⟨es ++ es', by rw [hes', hes, List.append_assoc], fun ph hmem => ?_⟩
  exact (List.mem_append.1 hmem).elim (hnone ph) (hnone' ph)

theorem RecordsNoTimeout.events_ne {s t : State} (h : RecordsNoTimeout s t) (ph : RsmPhase) :
    t.log.events ≠ s.log.events ++ [.timeout ph] := by
  obtain ⟨es, hes, hnone⟩ := h
  intro heq
  have hlast : es = [.timeout ph] := List.append_cancel_left (hes.symm.trans heq)
  exact hnone ph (hlast ▸ List.mem_singleton_self _)

@[simp] theorem endCorrelation_events (s : State) : (endCorrelation s).log.events = s.log.events := by
  unfold endCorrelation
  split <;> rfl

/-! ## The delivery of an outcome (R195, R261, R262) -/

theorem recordsNoTimeout_of_nextOrFinish {s t : State} (h : nextOrFinish s = .next t) : RecordsNoTimeout s t := by
  rcases nextOrFinish_next h with ⟨-, rfl⟩ | ⟨d, -, rfl⟩
  · exact recordsNoTimeout_of_same (by rw [finishExhausted, endCorrelation_events, writeResult_log])
  · exact recordsNoTimeout_of_same rfl

/-- A dropped indication is the one event that an enqueue records (R232). -/
theorem recordsNoTimeout_enqueue (f : DecodedFrame) (s : State) : RecordsNoTimeout s (enqueue f s) := by
  refine ⟨_, rfl, fun ph hmem => ?_⟩
  split at hmem <;> simp at hmem

theorem recordsNoTimeout_of_attemptEnd {o : RsmOutcome} {s t : State} (h : attemptEnd o s = .next t) :
    RecordsNoTimeout s t := by
  rcases attemptEnd_next h with ⟨f, -, -, rfl⟩ | ⟨u, hnext, hcase⟩
  · exact recordsNoTimeout_of_same (by rw [finishMatched, endCorrelation_events, writeResult_log])
  · refine RecordsNoTimeout.trans ?_ (recordsNoTimeout_of_nextOrFinish hnext)
    rcases hcase with ⟨-, rfl⟩ | ⟨f, -, rfl⟩ | ⟨f, -, rfl⟩ | ⟨f, -, rfl⟩
    · exact recordsNoTimeout_of_same rfl
    · exact recordsNoTimeout_of_same rfl
    · exact recordsNoTimeout_enqueue f { s with corr.last := some f }
    · exact recordsNoTimeout_enqueue f s

theorem recordsNoTimeout_of_deliver {o : RsmOutcome} {s t : State} (h : deliver o s = .next t) :
    RecordsNoTimeout s t := by
  rcases deliver_next h with ⟨-, rfl⟩ | ⟨-, hend⟩
  · exact recordsNoTimeout_of_same rfl
  · exact recordsNoTimeout_of_attemptEnd hend

/-! ## The Core's step (R183, R191) -/

theorem timeout_not_mem_rsmByte (b : Byte) (r : Rsm) (ph : RsmPhase) : .timeout ph ∉ (rsmByte b r).events := by
  unfold rsmByte
  split
  · exact List.not_mem_nil
  · unfold huntSyncByte
    split_ifs <;> simp
  · unfold huntCodeByte
    split_ifs <;> simp
  · exact List.not_mem_nil
  · unfold readBodyByte
    dsimp only
    split_ifs <;> simp

theorem recordsNoTimeout_of_byteStep {b : Byte} {s t : State} (h : byteStep b s = .next t) :
    RecordsNoTimeout s t := by
  have hbyte : RecordsNoTimeout s (record (rsmByte b s.rsm).events { s with rsm := (rsmByte b s.rsm).rsm }) :=
    ⟨_, rfl, timeout_not_mem_rsmByte b s.rsm⟩
  rcases applyRsm_next h with ⟨-, rfl⟩ | ⟨o, -, hdeliver⟩
  · exact hbyte
  · exact hbyte.trans (recordsNoTimeout_of_deliver hdeliver)

/-- Outside the receive phases the Core's moves record no timeout. -/
theorem coreMove_recordsNoTimeout {s t : State} (h : CoreMove s t) :
    RecordsNoTimeout s t ∨ s.ctl.receiving = true := by
  have hattempt (hctl : s.ctl = .rrAttempt) : s.ctl.receiving = true := by rw [hctl]; rfl
  have horigin {u : State} (origin : CorrelatesFrom s u) :
      u.log.events = s.log.events ∨ s.ctl.receiving = true := by
    cases origin with
    | request | transmit => exact .inl rfl
    | missed _ _ _ _ _ hctl => exact .inr (hattempt hctl)
  cases h with
  | byte b _ _ => exact .inl ⟨_, rfl, timeout_not_mem_rsmByte b s.rsm⟩
  | received _ _ hctl _ => right; rcases hctl with hctl | hctl <;> rw [hctl] <;> rfl
  | matched _ _ hctl _ => exact .inr (hattempt hctl)
  | exhausted u origin =>
    exact (horigin origin).imp_left fun he => recordsNoTimeout_of_same (by simp [finishExhausted, he])
  | attempt u d origin => exact (horigin origin).imp_left recordsNoTimeout_of_same
  | _ => exact .inl (recordsNoTimeout_of_same rfl)

/-- In a receive phase, what records a timeout is the timeout step (R191, R192). -/
theorem receivePhaseStep_timeout {s t : State} (h : receivePhaseStep s = .next t) :
    RecordsNoTimeout s t ∨ (timeoutEnabled s = true ∧ withinOverrun s.env.now.toNat s = true) := by
  obtain ⟨-, ⟨b, -, hbyte⟩ | ⟨-, henabled, hwithin, -⟩ | ⟨-, -, rfl⟩⟩ := receivePhaseStep_next h
  · exact .inl (recordsNoTimeout_of_byteStep (s := rxPop s) hbyte)
  · exact .inr ⟨henabled, hwithin⟩
  · exact .inl (recordsNoTimeout_of_same rfl)

theorem coreStep_timeout {s t : State} (h : coreStep s = .next t) :
    RecordsNoTimeout s t ∨ (timeoutEnabled s = true ∧ withinOverrun s.env.now.toNat s = true) := by
  rcases coreMove_recordsNoTimeout (coreMove_of_coreStep h) with hnone | hctl
  · exact .inl hnone
  · refine receivePhaseStep_timeout (?_ : receivePhaseStep s = .next t)
    rw [← ReceiveTurns.coreStep_of_receiving hctl, h]

/-! ## Every step (R192) -/

theorem step_timeout {s t : State} (h : step s = .next t) :
    RecordsNoTimeout s t ∨ (timeoutEnabled s = true ∧ withinOverrun s.env.now.toNat s = true) := by
  obtain ⟨-, ⟨-, hcore⟩ | ⟨a, more, -, hturn⟩⟩ := step_next h
  · exact coreStep_timeout hcore
  · by_cases hne : a = .core
    · subst hne
      exact coreStep_timeout (s := { s with env.agenda := more }) hturn
    · rcases turnStep_env_or_reset hne hturn with ⟨e, rfl⟩ | ⟨-, rfl⟩ <;>
        exact .inl (recordsNoTimeout_of_same rfl)

/-- Time is held at the bound of R192 while the timeout step is enabled (log entry 12). -/
theorem timeTurn_within {n : Nat} {s t : State} (henabled : timeoutEnabled s = true)
    (h : turnStep (.time n) s = .next t) : withinOverrun n s = true := by
  obtain ⟨hrun, -, hnone⟩ := ReceiveTurns.timeoutEnabled_iff.1 henabled
  have hheld : passesOverrun n s = false := by
    rcases turnStep_next h with ⟨⟨⟩, -⟩ | ⟨_, ⟨⟩, -⟩ | ⟨_, _, ⟨⟩, -⟩ | ⟨⟨⟩, -⟩ | ⟨_, ⟨⟩, -, -, hheld, -⟩ |
      ⟨⟨⟩, -⟩
    exact hheld
  simpa [passesOverrun, hrun, hnone] using hheld

/-- Settles O32: the timeout step tests the bound, and so does Time's turn while that step is enabled. -/
theorem timeoutReportingBound : Obligations.TimeoutReportingBound := by
  unfold Obligations.TimeoutReportingBound
  refine ⟨fun s t ph h hevents => ?recorded, fun s t n more hagenda henabled h => ?held⟩
  case recorded =>
    rcases step_timeout h with hnone | ⟨henabled, hwithin⟩
    · exact absurd hevents (hnone.events_ne ph)
    · obtain ⟨-, hdue, -⟩ := ReceiveTurns.timeoutEnabled_iff.1 henabled
      exact ⟨hdue, of_decide_eq_true hwithin⟩
  case held =>
    rw [StateInvariants.step_of_agenda_cons (step_next h).1 hagenda] at h
    exact of_decide_eq_true (timeTurn_within (s := { s with env.agenda := more }) henabled h)

end TimeoutReports
end Sys2Proof
end

section
/-! The Indication Queue (spec/42_queue.md): the ring buffer as a FIFO of at most 32 frames (R230 to R232, R236),
and which steps change its entries (R239). -/

namespace Sys2Proof
namespace IndicationQueue

open Machine Claims

/-! ## The ring buffer's entries (R52, R53, R231, R236) -/

@[simp] theorem frames_length (q : Queue) : q.frames.length = q.count.toNat := by
  rw [Queue.frames, List.length_map, List.length_range]

theorem isEmpty_iff {q : Queue} : q.isEmpty = true ↔ q.count = 0#6 := beq_iff_eq

theorem isFull_iff {q : Queue} : q.isFull = true ↔ q.count.toNat = 32 :=
  beq_iff_eq.trans BitVec.toNat_eq

theorem isFull_eq_false_iff {q : Queue} : q.isFull = false ↔ q.count.toNat ≠ 32 :=
  Bool.eq_false_iff.trans (not_congr isFull_iff)

theorem frames_of_empty {q : Queue} (h : q.count = 0#6) : q.frames = [] :=
  List.eq_nil_of_length_eq_zero (by rw [frames_length, h]; rfl)

theorem push_of_full {q : Queue} (h : q.count.toNat = 32) (f : DecodedFrame) : q.push f = q :=
  if_pos (isFull_iff.2 h)

theorem push_of_not_full {q : Queue} (h : q.count.toNat ≠ 32) (f : DecodedFrame) :
    q.push f = { q with entry := q.entry.set (q.slot q.count.toNat) f, count := q.count + 1#6 } :=
  if_neg (Bool.eq_false_iff.1 (isFull_eq_false_iff.2 h))

/-- ENQUEUE on the entries, oldest first: the list FIFO of R230 (R231, R232). -/
theorem frames_push_eq_ite {q : Queue} (hcap : q.count.toNat ≤ 32) (f : DecodedFrame) :
    (q.push f).frames = if q.frames.length = 32 then q.frames else q.frames ++ [f] := by
  rw [frames_length]
  split_ifs with hfull
  · rw [push_of_full hfull]
  · exact Queue.frames_push f hcap (isFull_eq_false_iff.2 hfull)

theorem frames_push_eq_take {q : Queue} (hcap : q.count.toNat ≤ 32) (f : DecodedFrame) :
    (q.push f).frames = (q.frames ++ [f]).take 32 := by
  rw [frames_push_eq_ite hcap]
  split_ifs with hfull
  · rw [List.take_left' hfull]
  · rw [frames_length] at hfull
    rw [List.take_of_length_le (by rw [List.length_append, frames_length, List.length_singleton]; omega)]

theorem count_push_le {q : Queue} (hcap : q.count.toNat ≤ 32) (f : DecodedFrame) : (q.push f).count.toNat ≤ 32 := by
  rw [← frames_length, frames_push_eq_take hcap]
  exact List.length_take_le _ _

theorem count_pop_le {q : Queue} (hcap : q.count.toNat ≤ 32) (h : q.isEmpty = false) :
    q.pop.count.toNat ≤ 32 := by
  have hpop := Queue.count_pop (Queue.count_pos_of_not_empty h)
  omega

/-! ## DEQUEUE (R236) -/

/-- The slot of the oldest entry is `q_head` itself (R52). -/
theorem oldest_of_head {q : Queue} {f : DecodedFrame} (h : q.entry[q.head.toNat]? = some f) : q.oldest = f := by
  have hslot : (q.slot 0).val = q.head.toNat := Nat.mod_eq_of_lt q.head.isLt
  obtain ⟨hlt, hget⟩ := Vector.getElem?_eq_some_iff.1 h
  simp only [Queue.oldest, Fin.getElem_fin, hslot, hget]

/-- Settles O16: DEQUEUE tests the count, and the oldest entry stands in the slot at the head. -/
theorem dequeueReturnsOldest : Obligations.DequeueReturnsOldest := by
  unfold Obligations.DequeueReturnsOldest
  refine ⟨FrameCodec.hasSelector_of_header rfl rfl, fun s => ⟨fun hempty => ?empty, fun f hne hf => ?oldest⟩⟩
  case empty => exact if_pos (isEmpty_iff.2 hempty)
  case oldest =>
    rw [← FrameReceive.isIndication_eq_decide, ← oldest_of_head hf]
    exact if_neg (mt isEmpty_iff.1 hne)

/-! ## ENQUEUE (R231, R232) -/

theorem enqueue_of_full {s : State} (h : s.queue.count.toNat = 32) (f : DecodedFrame) :
    enqueue f s = noted [.queueDrop f] s := by
  rw [enqueue, if_pos (isFull_iff.2 h), push_of_full h]
  rfl

theorem enqueue_of_not_full {s : State} (h : s.queue.count.toNat ≠ 32) (f : DecodedFrame) :
    enqueue f s = { s with queue := s.queue.push f } := by
  rw [enqueue, isFull_eq_false_iff.2 h]
  exact FrameCodes.record_nil _

/-- Settles O17: a full queue drops the frame, and a push on any other appends it. -/
theorem enqueueDropsNewest : Obligations.EnqueueDropsNewest := by
  unfold Obligations.EnqueueDropsNewest
  refine fun f s hcap => ⟨fun hfull => enqueue_of_full hfull f, fun hlt => ?_⟩
  have hne := Nat.ne_of_lt hlt
  refine ⟨s.queue.push f, enqueue_of_not_full hne f, ?_, ?_, Queue.frames_push f hcap (isFull_eq_false_iff.2 hne)⟩ <;>
    rw [push_of_not_full hne]

/-! ## Sequences of operations -/

/-- Settles O18, by induction on the operations: each acts on the entries as on the list. -/
theorem queueRefinesBoundedFifo : Obligations.QueueRefinesBoundedFifo := by
  unfold Obligations.QueueRefinesBoundedFifo
  intro ops
  induction ops with
  | nil => exact fun _ _ => ⟨rfl, rfl⟩
  | cons op ops ih =>
    intro q hcap
    cases op with
    | enqueue f =>
      rw [runRing, runFifo, ← frames_push_eq_ite hcap]
      exact ih _ (count_push_le hcap f)
    | dequeue =>
      cases hempty : q.isEmpty with
      | true =>
        obtain ⟨hout, hend⟩ := ih q hcap
        rw [frames_of_empty (isEmpty_iff.1 hempty)] at hout hend ⊢
        rw [runRing, if_pos hempty, runFifo]
        exact ⟨congrArg (none :: ·) hout, hend⟩
      | false =>
        obtain ⟨hout, hend⟩ := ih q.pop (count_pop_le hcap hempty)
        rw [Queue.frames_eq_oldest_cons hempty, runRing, if_neg (Bool.eq_false_iff.1 hempty), runFifo]
        exact ⟨congrArg (some q.oldest :: ·) hout, hend⟩

theorem take_take_append (n : Nat) (l m : List DecodedFrame) : (l.take n ++ m).take n = (l ++ m).take n := by
  have hroom : n - min n l.length = n - l.length := by omega
  rw [List.take_append, List.take_append, List.take_take, Nat.min_self, List.length_take, hroom]

/-- Enqueues in a row keep the first 32 of the frames queued and enqueued (R231). -/
theorem frames_foldl_push (fs : List DecodedFrame) {q : Queue} (hcap : q.count.toNat ≤ 32) :
    (fs.foldl (fun q f => q.push f) q).frames = (q.frames ++ fs).take 32 := by
  induction fs generalizing q with
  | nil => rw [List.foldl_nil, List.append_nil, List.take_of_length_le (by rwa [frames_length])]
  | cons f fs ih =>
    rw [List.foldl_cons, ih (count_push_le hcap f), frames_push_eq_take hcap]
    rw [take_take_append, List.append_assoc, List.singleton_append]

/-- Settles O19: the count is the number of the entries. -/
theorem queueBackpressure : Obligations.QueueBackpressure := by
  unfold Obligations.QueueBackpressure
  intro q fs hempty hlen
  have hframes := frames_foldl_push fs (q := q) (by rw [hempty]; decide)
  rw [frames_of_empty hempty, List.nil_append] at hframes
  refine ⟨?_, hframes⟩
  rw [← frames_length, hframes, List.length_take, hlen]
  rfl

/-! ## Which steps change the entries (R233, R236, R239, R280) -/

/-- The accepted operation is one that takes the oldest entry (R236, R280). -/
def TakesOldest (s : State) : Prop :=
  decodeOp s.host.curOp = .ok .dequeue ∨ ∃ tm, decodeOp s.host.curOp = .ok (.pollIndication tm)

/-- What the Core's step can do to the queue registers. -/
inductive QueueMove (s t : State) : Prop
  | keeps (same : t.queue = s.queue)
  | pushes (f : DecodedFrame) (hctl : s.ctl = .rrAttempt) (hind : isIndication f.code = true)
      (pushed : t.queue = s.queue.push f)
  | pops (first : s.AtFirstStep) (op : TakesOldest s) (nonempty : s.queue.isEmpty = false)
      (popped : t.queue = s.queue.pop)

theorem nextOrFinish_queue {s t : State} (h : nextOrFinish s = .next t) : t.queue = s.queue := by
  rcases nextOrFinish_next h with ⟨-, rfl⟩ | ⟨d, -, rfl⟩
  · rw [finishExhausted, endCorrelation_queue, writeResult_queue]
  · rfl

/-- Of the host operations only two touch the queue in their first step. -/
theorem exec_queue {i : Instr} (hhost : i.codeByte = none) {s t : State} (h : exec i s = .next t) :
    t.queue = s.queue ∨ i = .dequeue ∨ ∃ tm, i = .pollIndication tm := by
  cases i with
  | dequeue => exact .inr (.inl rfl)
  | pollIndication tm => exact .inr (.inr ⟨tm, rfl⟩)
  | check | wakeup | sleep => cases h; exact .inl rfl
  | encode | send =>
    simp only [exec, execEncode, execSend] at h
    split_ifs at h <;> cases h <;> exact .inl rfl
  | receive =>
    obtain ⟨d, -, rfl⟩ := startReceive_next h
    exact .inl rfl
  | requestReply => exact .inl (nextOrFinish_queue h :)
  | transaction =>
    simp only [exec, execTransaction] at h
    split at h
    · cases h
      exact .inl rfl
    · split at h <;> cases h
      exact .inl rfl
  | moduleReset =>
    obtain ⟨u, -, rfl⟩ := moduleResetPhase_next h
    exact .inl rfl
  | _ => cases hhost

theorem handsOver_queue {s u : State} {o : RsmOutcome} (h : HandsOver s o u) : u.queue = s.queue := by
  cases h
  rfl

/-- A correlation goes on with the queue as it was, or with the indication that ended the attempt (R261). -/
theorem queueMove_of_correlatesFrom {s u t : State} (h : CorrelatesFrom s u) (ht : t.queue = u.queue) :
    QueueMove s t := by
  cases h with
  | request | transmit => exact .keeps ht
  | missed o u last q es hctl handed observed enqueued =>
    rcases enqueued with rfl | ⟨f, rfl, -, hind⟩
    · exact .keeps ht
    · exact .pushes f hctl hind ht

/-- The Core's moves on the queue; which operation pops is not said by the move. -/
theorem coreMove_queue {s t : State} (h : CoreMove s t) :
    QueueMove s t ∨ (s.AtFirstStep ∧ s.queue.isEmpty = false ∧ t.queue = s.queue.pop) := by
  cases h with
  | dequeue ind first nonempty => exact .inr ⟨first, nonempty, rfl⟩
  | received o u hctl handed => exact .inl (.keeps (handsOver_queue handed :))
  | matched f u hctl handed => exact .inl (.keeps (by simp [finishMatched, handsOver_queue handed]))
  | exhausted u origin => exact .inl (queueMove_of_correlatesFrom origin (by simp [finishExhausted]))
  | attempt u d origin => exact .inl (queueMove_of_correlatesFrom origin rfl)
  | _ => exact .inl (.keeps rfl)

/-- An operation's first step that pops is that of DEQUEUE or POLL_INDICATION (R236, R280). -/
theorem queueMove_of_pop {s t : State} (first : s.AtFirstStep) (nonempty : s.queue.isEmpty = false)
    (popped : t.queue = s.queue.pop) (h : coreStep s = .next t) : QueueMove s t := by
  obtain ⟨hbusy, hctl⟩ := first
  rw [coreStep, hctl] at h
  rcases idlePhaseStep_next h with ⟨hfree, -⟩ | ⟨-, i, hop, hexec⟩ | ⟨-, -, -, -, rfl⟩
  · exact absurd hbusy (Bool.eq_false_iff.1 hfree)
  · rcases exec_queue (codeByte_of_decodeOp hop) hexec with hsame | rfl | ⟨tm, rfl⟩
    · exact .keeps hsame
    · exact .pops ⟨hbusy, hctl⟩ (.inl hop) nonempty popped
    · exact .pops ⟨hbusy, hctl⟩ (.inr ⟨tm, hop⟩) nonempty popped
  · exact .keeps rfl

theorem coreStep_queue {s t : State} (h : coreStep s = .next t) : QueueMove s t := by
  rcases coreMove_queue (coreMove_of_coreStep h) with hmove | ⟨first, nonempty, popped⟩
  · exact hmove
  · exact queueMove_of_pop first nonempty popped h

/-- The step leaves the entries, or in the Core's turn adds an indication at the end or takes the oldest. -/
def EntriesPersist (s t : State) : Prop :=
  t.queue.frames = s.queue.frames ∨
  ((∃ f, t.queue.frames = s.queue.frames ++ [f] ∧ f.code ∈ Config.indSet) ∧ coreTurn s ∧ s.ctl = .rrAttempt) ∨
  ((∃ f, s.queue.frames = f :: t.queue.frames) ∧ starting s ∧ TakesOldest s)

/-- The agenda is no part of what a move of the queue reads. -/
theorem QueueMove.entriesPersist {s t : State} {more : List Turn} (hcap : s.queue.count.toNat ≤ 32)
    (hturn : coreTurn s) (h : QueueMove { s with env.agenda := more } t) : EntriesPersist s t := by
  rcases h with same | ⟨f, hctl, hind, pushed⟩ | ⟨⟨hbusy, hctl⟩, op, nonempty, popped⟩
  · exact .inl (congrArg Queue.frames same)
  · have hframes : t.queue.frames = _ := (congrArg Queue.frames pushed).trans (frames_push_eq_ite hcap f)
    split_ifs at hframes
    · exact .inl hframes
    · exact .inr (.inl ⟨⟨f, hframes, (FrameCodes.isIndication_iff _).1 hind⟩, hturn, hctl⟩)
  · refine .inr (.inr ⟨⟨s.queue.oldest, ?_⟩, ⟨hturn, hbusy, hctl⟩, op⟩)
    rw [popped]
    exact Queue.frames_eq_oldest_cons nonempty

/-- Another agent leaves the queue alone, and the block reset empties it (R6, R420). -/
theorem turnStep_queue {a : Turn} {s t : State} (hne : a ≠ .core) (h : turnStep a s = .next t) :
    (a = .rst ∧ t.queue = Queue.reset) ∨ (a ≠ .rst ∧ t.queue = s.queue) := by
  by_cases hrst : a = .rst
  · subst hrst
    cases h
    exact .inl ⟨rfl, rfl⟩
  · rcases turnStep_env_or_reset hne h with ⟨e, rfl⟩ | ⟨rfl, -⟩
    · exact .inr ⟨hrst, rfl⟩
    · exact absurd rfl hrst

theorem step_queue {s t : State} (h : step s = .next t) :
    (coreTurn s ∧ ∃ more, QueueMove { s with env.agenda := more } t) ∨
    (s.env.agenda.head? = some .rst ∧ t.queue = Queue.reset) ∨
    (s.env.agenda.head? ≠ some .rst ∧ t.queue = s.queue) := by
  obtain ⟨-, ⟨hnil, hcore⟩ | ⟨a, more, hcons, hturn⟩⟩ := step_next h
  · exact .inl ⟨.inl (by rw [hnil]; rfl), s.env.agenda, coreStep_queue hcore⟩
  · have hhead : s.env.agenda.head? = some a := by rw [hcons]; rfl
    by_cases hne : a = .core
    · subst hne
      exact .inl ⟨.inr hhead, more, coreStep_queue hturn⟩
    · rw [hhead, Ne, Option.some_inj]
      exact .inr (turnStep_queue (s := { s with env.agenda := more }) hne hturn)

theorem head_ne_rst_of_coreTurn {s : State} (h : coreTurn s) : s.env.agenda.head? ≠ some .rst := by
  rcases h with h | h <;> rw [h] <;> exact nofun

/-- Settles O20: the Core's step makes one of the moves of the queue, and another agent's at most resets it. -/
theorem queueEntriesPersist : Obligations.QueueEntriesPersist := by
  unfold Obligations.QueueEntriesPersist
  intro s t hcap h
  rcases step_queue h with ⟨hturn, more, hmove⟩ | ⟨hrst, hreset⟩ | ⟨hne, hsame⟩
  · rw [if_neg (head_ne_rst_of_coreTurn hturn)]
    exact hmove.entriesPersist hcap hturn
  · rw [if_pos hrst, hreset]
    exact frames_of_empty rfl
  · rw [if_neg hne]
    exact .inl (congrArg Queue.frames hsame)

end IndicationQueue
end Sys2Proof
end

section
/-! The Correlator (spec/43_correlator.md section 1): how a correlation starts, goes on to its next attempt, and
ends (R260 to R267). -/

namespace Sys2Proof
namespace Correlation

open Machine Claims StateInvariants

/-! ## The next attempt (R261, R265) -/

theorem startReceive_of_fits {tm : BitVec 32} {s : State} (h : s.env.now.toNat + tm.toNat < 2 ^ 64)
    (e : Option Byte) (ph : CtlPhase) :
    startReceive (timeoutTime tm) e ph s = .next (receiving (s.env.now + tm.setWidth 64) e ph s) := by
  have hdeadline : addTime s.env.now (timeoutTime tm) = some (s.env.now + tm.setWidth 64) :=
    addTime_eq_some.2 ⟨by rwa [toNat_timeoutTime], rfl⟩
  rw [startReceive, hdeadline]
  rfl

theorem nextOrFinish_of_exhausted {s : State} (h : s.corr.remaining = 0#8) :
    nextOrFinish s = .next (finishExhausted s) := if_pos h

theorem nextOrFinish_of_remaining {s : State} (hm : s.corr.remaining ≠ 0#8) :
    nextOrFinish s = startReceive (timeoutTime s.corr.timeout) (some (replyCode s.corr.cmd)) .rrAttempt
      { s with corr.remaining := s.corr.remaining - 1#8 } := if_neg hm

theorem nextOrFinish_of_attempt {s : State} (hm : s.corr.remaining ≠ 0#8)
    (h : s.env.now.toNat + s.corr.timeout.toNat < 2 ^ 64) :
    nextOrFinish s = .next (receiving (s.env.now + s.corr.timeout.setWidth 64)
      (some (s.corr.cmd ||| 0x80#8)) .rrAttempt { s with corr.remaining := s.corr.remaining - 1#8 }) := by
  rw [nextOrFinish_of_remaining hm]
  refine startReceive_of_fits ?_ _ _
  exact h

/-! ## The end (R262, R264) -/

theorem endCorrelation_of_request {s : State} (hctx : s.corr.ctx = false) :
    endCorrelation s = { s with ctl := .idle } := by
  rw [endCorrelation, hctx]
  rfl

theorem endCorrelation_of_transaction {s : State} (hctx : s.corr.ctx = true) :
    endCorrelation s = { wakeDriven true s with ctl := .idle } := by
  rw [endCorrelation, hctx]
  rfl

/-- In strict mode, and where no frame was observed, exhaustion is no reply (R262, R263). -/
theorem exhaustedResult_no_reply {c : Corr} (h : c.strict = true ∨ c.last = none) :
    exhaustedResult c = statusOnly 0x02#8 := by
  unfold exhaustedResult
  split_ifs with hstrict
  · rfl
  · rw [h.resolve_left hstrict]
    rfl

/-- In legacy mode the last frame observed is the result (R262). -/
theorem exhaustedResult_best_effort {c : Corr} {g : DecodedFrame} (hmode : c.strict = false)
    (hlast : c.last = some g) :
    exhaustedResult c = withFrame g (decide (g.code ∈ Config.indSet)) false := by
  rw [exhaustedResult, hmode, hlast, ← FrameReceive.isIndication_eq_decide]
  rfl

theorem finishExhausted_no_reply {s : State} (h : s.corr.strict = true ∨ s.corr.last = none) :
    finishExhausted s = endCorrelation (ended (statusOnly 0x02#8) s) := by
  rw [finishExhausted, exhaustedResult_no_reply h]
  rfl

/-- Settles O39: each end writes its result, and `end_correlation` drives the pin in a TRANSACTION. -/
theorem finishingResults : Obligations.FinishingResults := by
  unfold Obligations.FinishingResults
  refine fun s => ⟨fun f => rfl, fun g hmode hlast => ?bestEffort, fun h => ?noReply⟩
  case bestEffort =>
    rw [finishExhausted, exhaustedResult_best_effort hmode hlast]
    rfl
  case noReply =>
    rw [finishExhausted_no_reply h]
    rfl

/-! ## REQUEST_REPLY starts (R260, R264) -/

/-- Settles O36: the correlator registers are written, and the first attempt starts. -/
theorem requestReplyStarts : Obligations.RequestReplyStarts := by
  unfold Obligations.RequestReplyStarts
  exact fun c tm n m st s hm hfits =>
    ⟨FrameCodec.hasSelector_of_header rfl rfl,
      nextOrFinish_of_attempt (s := { s with corr := corrStart c tm n m st false }) hm hfits⟩

/-- Settles O37: with no attempt left and no frame observed, the correlation ends. -/
theorem zeroAttempts : Obligations.ZeroAttempts := by
  unfold Obligations.ZeroAttempts
  intro c tm n st s
  change nextOrFinish { s with corr := corrStart c tm n 0#8 st false } = _
  rw [nextOrFinish_of_exhausted rfl, finishExhausted_no_reply (.inr rfl)]
  rfl

/-! ## How an attempt ends (R261, R266, R267) -/

theorem wrongLength_eq_true {c : Corr} {f : DecodedFrame} {n : Byte} (hexp : c.expLen = some n)
    (hlen : f.length ≠ n) : wrongLength c f = true := by
  rw [wrongLength, hexp]
  exact bne_iff_ne.2 hlen

theorem wrongLength_eq_false {c : Corr} {f : DecodedFrame} (h : c.expLen = none ∨ c.expLen = some f.length) :
    wrongLength c f = false := by
  rw [wrongLength]
  rcases h with h | h <;> rw [h]
  exact bne_self_eq_false f.length

theorem deliver_of_attempt {s : State} (hctl : s.ctl = .rrAttempt) (o : RsmOutcome) :
    deliver o s = attemptEnd o s := by
  rw [deliver, hctl]

theorem attemptIndication_of_anyFrame {s : State} (h : s.params.lastFrame = .anyFrame) (f : DecodedFrame) :
    attemptIndication f s = nextOrFinish (enqueue f { s with corr.last := some f }) := by
  rw [attemptIndication, if_pos h]

theorem attemptIndication_of_repliesOnly {s : State} (h : s.params.lastFrame = .repliesOnly) (f : DecodedFrame) :
    attemptIndication f s = nextOrFinish (enqueue f s) := by
  rw [attemptIndication, if_neg (by rw [h]; exact nofun)]

theorem attemptEnd_of_wrongLength {s : State} {f : DecodedFrame} (h : wrongLength s.corr f = true) :
    attemptEnd (.frame f false) s = nextOrFinish { s with corr.last := some f } := if_pos h

theorem attemptEnd_of_rightLength {s : State} {f : DecodedFrame} (h : wrongLength s.corr f = false) :
    attemptEnd (.frame f false) s = .next (finishMatched f s) := if_neg (Bool.eq_false_iff.1 h)

/-- A frame that is no indication, handed over in an attempt, is a reply to the command (R186, R261, R267). -/
theorem code_of_reply {s : State} {b : Byte} {f : DecodedFrame} (hs : s.ControlSound) (hrsm : s.rsm.Sound)
    (hctl : s.ctl = .rrAttempt) (hout : (rsmByte b s.rsm).outcome = some (.frame f false)) :
    f.code = s.corr.cmd ||| 0x80#8 := by
  obtain ⟨-, -, hattempt, -⟩ := hs
  obtain ⟨-, -, hok, hind, -⟩ := FrameCodes.acceptedFramesAreValid b s.rsm f false hrsm hout
  have hnot : f.code ∉ Config.indSet := of_decide_eq_false hind.symm
  rw [hattempt hctl, FrameCodes.codeOk_some_iff] at hok
  exact hok.resolve_right hnot

/-- Settles O38: `next_or_finish` by the attempts left, and the attempt-end rule by the outcome. -/
theorem correlatorAttempts : Obligations.CorrelatorAttempts := by
  unfold Obligations.CorrelatorAttempts
  refine ⟨fun s => nextOrFinish_of_exhausted, fun s => nextOrFinish_of_attempt, fun s hctl => ?ends,
    fun s b f => code_of_reply⟩
  simp only [deliver_of_attempt hctl]
  exact ⟨rfl, fun f hp => attemptIndication_of_anyFrame hp f,
    fun f hp => attemptIndication_of_repliesOnly hp f,
    fun f n hexp hlen => attemptEnd_of_wrongLength (wrongLength_eq_true hexp hlen),
    fun f hexp => attemptEnd_of_rightLength (wrongLength_eq_false hexp)⟩

end Correlation
end Sys2Proof
end

section
/-! TRANSACTION and POLL_INDICATION (spec/43_correlator.md sections 2 and 3): the awake window, from the step that
opens it to the end that closes it (R270 to R274), and the polling receive, which leaves it open (R280, R281). -/

namespace Sys2Proof
namespace AwakeWindow

open Machine Claims StateInvariants Correlation

/-! ## The window opens and the frame is sent (R270, R271, R274) -/

/-- Settles O41: the payload fits, and the wait's end is representable. -/
theorem transactionOpensAwakeWindow : Obligations.TransactionOpensAwakeWindow := by
  unfold Obligations.TransactionOpensAwakeWindow
  intro c p tm n m st s hp hfits
  refine ⟨FrameCodec.hasSelector_of_header rfl rfl, ?_⟩
  have huntil : addTime s.env.now s.params.tWake = some (s.env.now + s.params.tWake) :=
    addTime_eq_some.2 ⟨hfits, rfl⟩
  change execTransaction c p tm n m st s = _
  rw [execTransaction, if_neg (Bool.eq_false_iff.1 (payloadTooLarge_eq_false.2 hp)), huntil]
  rfl

theorem whenReached_of_lt {u : Time} {go : State → Host.Outcome State Fault Refusal} {s : State}
    (h : s.env.now < u) : whenReached u go s = .next s := if_neg (BitVec.not_le.2 h)

theorem step_of_trWake {s : State} (hnext : coreNext s) (hctl : s.ctl = .trWake) :
    step s = whenReached s.twUntil transactionTransmit s := by
  rw [step_of_coreNext hnext, coreStep, hctl]

theorem transactionTransmit_of_decode {s : State} {c : Byte} {p : List Byte} {tm : BitVec 32} {n : Option Byte}
    {m : Byte} {st : Bool} (hop : decodeOp s.host.curOp = .ok (.transaction c p tm n m st)) :
    transactionTransmit s =
      nextOrFinish { txWrite (frame c p) s with corr := corrStart c tm n m st true } := by
  rw [transactionTransmit, hop]

/-- Settles O42: the wait, and at its end the frame and the first attempt, or the end of none. -/
theorem transactionTransmits : Obligations.TransactionTransmits := by
  unfold Obligations.TransactionTransmits
  intro c p tm n m st s hnext hctl hop
  dsimp only
  rw [step_of_trWake hnext hctl]
  refine ⟨whenReached_of_lt, fun due hm hfits => ?attempt, fun due hm => ?none⟩ <;>
    rw [whenReached_of_le due, transactionTransmit_of_decode hop]
  case attempt => exact nextOrFinish_of_attempt (by exact hm) (by exact hfits)
  case none =>
    rw [nextOrFinish_of_exhausted (by exact hm), finishExhausted_no_reply (.inr rfl)]
    rfl

/-! ## The window closes (R272) -/

/-- A TRANSACTION is in its wait or in an attempt. -/
def InTransaction (s : State) : Prop := s.ctl = .trWake ∨ (s.ctl = .rrAttempt ∧ s.corr.ctx = true)

theorem InTransaction.ctl_ne_idle {s : State} (h : InTransaction s) : s.ctl ≠ .idle := by
  rcases h with h | ⟨h, -⟩ <;> rw [h] <;> exact nofun

theorem InTransaction.ctx_of_attempt {s : State} (h : InTransaction s) (hctl : s.ctl = .rrAttempt) :
    s.corr.ctx = true := by
  rcases h with hwake | ⟨-, hctx⟩
  · cases hctl.symm.trans hwake
  · exact hctx

/-- What a TRANSACTION's correlation goes on from is its own. -/
theorem correlatesFrom_ctx {s u : State} (hs : InTransaction s) (h : CorrelatesFrom s u) : u.corr.ctx = true := by
  cases h with
  | request _ _ _ _ _ first => exact absurd first.2 hs.ctl_ne_idle
  | transmit => rfl
  | missed _ _ _ _ _ hctl handed =>
    have hctx := hs.ctx_of_attempt hctl
    cases handed
    exact hctx

/-- The pin is high and the result of `s`'s operation is written. -/
def Released (s t : State) : Prop :=
  t.pins.wakeN = true ∧ t.host.busy = false ∧ t.host.resultValid = true ∧
    t.log.results = s.log.results ++ [t.host.result]

theorem released_endCorrelation {s u : State} (r : Result) (hctx : u.corr.ctx = true)
    (hlog : u.log.results = s.log.results) : Released s (endCorrelation (writeResult r u)) := by
  refine ⟨?_, by simp, by simp, by simp [hlog]⟩
  rw [endCorrelation_of_transaction (by exact hctx)]
  rfl

/-- Of the Core's moves in a TRANSACTION, those to `CTL_IDLE` end the correlation (R262, R272). -/
theorem coreMove_released {s t : State} (hs : InTransaction s) (h : CoreMove s t) (hidle : t.ctl = .idle) :
    Released s t := by
  have hbusy := hs.ctl_ne_idle
  cases h with
  | wait | byte => exact absurd hidle hbusy
  | accept _ _ _ hctl => exact absurd hctl hbusy
  | answer _ first | send _ _ first | dequeue _ first | driveWake _ first => exact absurd first.2 hbusy
  | receive | poll | wake | resetLow | resetHigh | attempt => cases hidle
  | resetDone hctl => simp [InTransaction, hctl] at hs
  | received _ _ hctl => rcases hctl with hctl | hctl <;> simp [InTransaction, hctl] at hs
  | matched f u hctl handed =>
    have hctx := hs.ctx_of_attempt hctl
    cases handed
    exact released_endCorrelation _ hctx rfl
  | exhausted u origin => exact released_endCorrelation _ (correlatesFrom_ctx hs origin) origin.results

/-- Settles O43: the Core's moves that end a TRANSACTION end its correlation, and a block reset drives the pin
high. -/
theorem transactionScopedRelease : Obligations.TransactionScopedRelease := by
  unfold Obligations.TransactionScopedRelease
  intro s t hs h hidle
  rcases step_moves h with ⟨-, more, hmove⟩ | ⟨a, more, hhead, hne, hturn⟩
  · obtain ⟨hpin, hfree, hresult⟩ := coreMove_released (s := { s with env.agenda := more }) hs hmove hidle
    exact ⟨hpin, hfree, fun _ => hresult⟩
  · rcases turnStep_env_or_reset hne hturn with ⟨e, rfl⟩ | ⟨rfl, rfl⟩
    · exact absurd hidle (InTransaction.ctl_ne_idle hs)
    · exact ⟨rfl, rfl, fun hrst => absurd hhead hrst⟩

/-! ## POLL_INDICATION (R280, R281) -/

/-- Settles O44: POLL_INDICATION tests the count, and the oldest entry stands in the slot at the head. -/
theorem pollIndicationDrainsOrReceives : Obligations.PollIndicationDrainsOrReceives := by
  unfold Obligations.PollIndicationDrainsOrReceives
  refine fun tm s => ⟨FrameCodec.hasSelector_of_header rfl rfl, fun f hne hf => ?drain,
    fun hempty hfits => ?receive⟩
  case drain =>
    rw [← IndicationQueue.oldest_of_head hf]
    exact if_neg (mt IndicationQueue.isEmpty_iff.1 hne)
  case receive =>
    have hstart : exec (.pollIndication tm) s =
        startReceive (timeoutTime tm) none .pollReceive (pinWriteWake false s) :=
      if_pos (IndicationQueue.isEmpty_iff.2 hempty)
    rw [hstart, startReceive_of_fits (by exact hfits)]
    rfl

/-- No pin moves, and the polling receive goes on or ends. -/
def PollsOn (s t : State) : Prop :=
  t.pins = s.pins ∧ t.log.pins = s.log.pins ∧ (t.ctl = .pollReceive ∨ t.ctl = .idle)

/-- A correlation belongs to another operation. -/
theorem not_correlatesFrom_of_poll {s u : State} (hs : s.ctl = .pollReceive) : ¬ CorrelatesFrom s u := by
  intro h
  cases h with
  | request _ _ _ _ _ first => cases hs.symm.trans first.2
  | transmit _ _ _ _ _ _ hctl => cases hs.symm.trans hctl
  | missed _ _ _ _ _ hctl => cases hs.symm.trans hctl

theorem coreMove_pollsOn {s t : State} (hs : s.ctl = .pollReceive) (h : CoreMove s t) : PollsOn s t := by
  cases h with
  | wait | byte => exact ⟨rfl, rfl, .inl hs⟩
  | received _ u _ handed =>
    cases handed
    exact ⟨rfl, rfl, .inr rfl⟩
  | accept _ _ _ hctl | resetHigh _ hctl | resetDone hctl | matched _ _ hctl => cases hs.symm.trans hctl
  | answer _ first | send _ _ first | dequeue _ first | driveWake _ first | receive _ _ first | poll _ first
  | wake _ _ _ _ _ _ _ first | resetLow _ first => cases hs.symm.trans first.2
  | exhausted _ origin | attempt _ _ origin => exact absurd origin (not_correlatesFrom_of_poll hs)

/-- Settles O45: the Core's moves in the polling receive wait, take a byte or end it, and no other agent but the
reset input drives a pin. -/
theorem pollLeavesPinsAlone : Obligations.PollLeavesPinsAlone := by
  unfold Obligations.PollLeavesPinsAlone
  intro s t hs hrst h
  rcases step_moves h with ⟨-, more, hmove⟩ | ⟨a, more, hhead, hne, hturn⟩
  · exact coreMove_pollsOn (s := { s with env.agenda := more }) hs hmove
  · rcases turnStep_env_or_reset hne hturn with ⟨e, rfl⟩ | ⟨rfl, -⟩
    · exact ⟨rfl, rfl, .inl hs⟩
    · exact absurd hhead hrst

end AwakeWindow
end Sys2Proof
end

section
/-! The pin operations (spec/43_correlator.md section 4): WAKEUP and SLEEP (R286, R287), and the two timed phases of
MODULE_RESET, which hold every presented operation (R290, R291, R432). -/

namespace Sys2Proof
namespace PinOperations

open Machine Claims StateInvariants

/-! ## WAKEUP and SLEEP (R286, R287) -/

/-- Settles O46: each drives the pin and writes its result. -/
theorem wakeupAndSleepDriveThePin : Obligations.WakeupAndSleepDriveThePin := by
  unfold Obligations.WakeupAndSleepDriveThePin
  exact ⟨FrameCodec.hasSelector_of_header rfl rfl, FrameCodec.hasSelector_of_header rfl rfl,
    fun s => ⟨rfl, rfl⟩⟩

/-! ## The phases of MODULE_RESET (R290) -/

theorem moduleResetPhase_of_fits {w : Time} {s : State} (h : s.env.now.toNat + w.toNat < 2 ^ 64) (v : Bool)
    (ph : CtlPhase) :
    moduleResetPhase v w ph s = .next { resetDriven v s with mrUntil := s.env.now + w, ctl := ph } := by
  have huntil : addTime s.env.now w = some (s.env.now + w) := addTime_eq_some.2 ⟨h, rfl⟩
  rw [moduleResetPhase, huntil]
  rfl

/-- While a phase of MODULE_RESET has not run out, the Core waits (R290). -/
theorem coreStep_of_running_phase {s : State} (hctl : s.ctl = .mrLow ∨ s.ctl = .mrSettle)
    (h : s.env.now < s.mrUntil) : coreStep s = .next s := by
  rcases hctl with hctl | hctl <;> rw [coreStep, hctl] <;> exact AwakeWindow.whenReached_of_lt h

theorem coreStep_of_low_over {s : State} (hctl : s.ctl = .mrLow) (due : s.mrUntil ≤ s.env.now) :
    coreStep s = moduleResetPhase true s.params.tSettle .mrSettle s := by
  rw [coreStep, hctl]
  exact whenReached_of_le due

theorem coreStep_of_settled {s : State} (hctl : s.ctl = .mrSettle) (due : s.mrUntil ≤ s.env.now) :
    coreStep s = moduleResetDone s := by
  rw [coreStep, hctl]
  exact whenReached_of_le due

/-- Settles O47: each of the three steps, and the waits between them. -/
theorem moduleResetPulse : Obligations.ModuleResetPulse := by
  unfold Obligations.ModuleResetPulse
  refine ⟨FrameCodec.hasSelector_of_header rfl rfl, fun s hfits => ?low, fun s hnext hctl hlt => ?wait,
    fun s hnext hctl due hfits => ?high, fun s hnext hctl due => ?done⟩
  case low => exact moduleResetPhase_of_fits hfits _ _
  case wait => rw [step_of_coreNext hnext, coreStep_of_running_phase hctl hlt]
  case high => rw [step_of_coreNext hnext, coreStep_of_low_over hctl due, moduleResetPhase_of_fits hfits]
  case done =>
    rw [step_of_coreNext hnext, coreStep_of_settled hctl due]
    rfl

/-! ## The bounds of the phases (R432) -/

theorem params_ok_iff {p : Params} :
    p.ok = true ↔ 100000 ≤ p.tResetLow.toNat ∧ 2000000 ≤ p.tSettle.toNat := by
  rw [Params.ok, Bool.and_eq_true, decide_eq_true_iff, decide_eq_true_iff, BitVec.le_def, BitVec.le_def]
  rfl

theorem moduleResetPhase_until {v : Bool} {w : Time} {ph : CtlPhase} {s t : State}
    (h : moduleResetPhase v w ph s = .next t) :
    t.mrUntil.toNat = s.env.now.toNat + w.toNat ∧ t.pins.resetN = v := by
  obtain ⟨u, huntil, rfl⟩ := moduleResetPhase_next h
  obtain ⟨hlt, rfl⟩ := addTime_eq_some.1 huntil
  exact ⟨BitVec.toNat_add_of_lt hlt, rfl⟩

theorem nextOrFinish_ctl {s t : State} (h : nextOrFinish s = .next t) : t.ctl = .idle ∨ t.ctl = .rrAttempt := by
  rcases nextOrFinish_next h with ⟨-, rfl⟩ | ⟨d, -, rfl⟩
  · exact .inl rfl
  · exact .inr rfl

/-- Of the host operations only MODULE_RESET holds the module in reset after its first step. -/
theorem exec_enters_mrLow {i : Instr} (hhost : i.codeByte = none) {s t : State} (hs : s.ctl = .idle)
    (h : exec i s = .next t) (hlow : t.ctl = .mrLow) : i = .moduleReset := by
  have hstays {ph : CtlPhase} (hsame : ph = s.ctl) : ph ≠ .mrLow := by
    rw [hsame, hs]
    exact nofun
  cases i with
  | moduleReset => rfl
  | check | wakeup | sleep => cases h; exact absurd hlow (hstays rfl)
  | encode | send | dequeue =>
    simp only [exec, execEncode, execSend, execDequeue] at h
    split_ifs at h <;> cases h <;> exact absurd hlow (hstays rfl)
  | receive =>
    obtain ⟨d, -, rfl⟩ := startReceive_next h
    cases hlow
  | requestReply => rcases nextOrFinish_ctl h with hctl | hctl <;> cases hctl.symm.trans hlow
  | pollIndication =>
    simp only [exec, execPollIndication] at h
    split_ifs at h
    · obtain ⟨d, -, rfl⟩ := startReceive_next h
      cases hlow
    · cases h
      exact absurd hlow (hstays rfl)
  | transaction =>
    simp only [exec, execTransaction] at h
    split_ifs at h
    · cases h
      exact absurd hlow (hstays rfl)
    · split at h <;> cases h
      cases hlow
  | _ => cases hhost

/-- The Core's step that enters `CTL_MR_LOW` is the first one of MODULE_RESET (R290). -/
theorem idlePhaseStep_enters_mrLow {s t : State} (hs : s.ctl = .idle) (h : idlePhaseStep s = .next t)
    (hlow : t.ctl = .mrLow) : execModuleReset s = .next t := by
  rcases idlePhaseStep_next h with ⟨-, rfl⟩ | ⟨-, i, hop, hexec⟩ | ⟨-, -, -, -, rfl⟩
  · have hsame : (acceptStep s).ctl = s.ctl := by unfold acceptStep; split <;> rfl
    cases (hsame.trans hs).symm.trans hlow
  · obtain rfl := exec_enters_mrLow (codeByte_of_decodeOp hop) hs hexec hlow
    exact hexec
  · cases hs.symm.trans hlow

/-- A step that changes `ctl_phase` to a phase other than `CTL_IDLE` is the Core's (R6, R420). -/
theorem coreStep_of_phase_change {s t : State} (h : step s = .next t) (hne : t.ctl ≠ s.ctl)
    (hidle : t.ctl ≠ .idle) : ∃ more, coreStep { s with env.agenda := more } = .next t := by
  obtain ⟨-, ⟨-, hcore⟩ | ⟨a, more, -, hturn⟩⟩ := step_next h
  · exact ⟨s.env.agenda, hcore⟩
  · by_cases ha : a = .core
    · subst ha
      exact ⟨more, hturn⟩
    · rcases turnStep_env_or_reset ha hturn with ⟨e, rfl⟩ | ⟨-, rfl⟩
      · exact absurd rfl hne
      · exact absurd rfl hidle

theorem coreStep_enters_mrLow {s t : State} (hok : s.params.ok = true) (hs : s.ctl = .idle)
    (h : coreStep s = .next t) (hlow : t.ctl = .mrLow) :
    s.env.now.toNat + 100000 ≤ t.mrUntil.toNat ∧ t.pins.resetN = false := by
  obtain ⟨hbound, -⟩ := params_ok_iff.1 hok
  rw [coreStep, hs] at h
  obtain ⟨huntil, hpin⟩ := moduleResetPhase_until (idlePhaseStep_enters_mrLow hs h hlow)
  exact ⟨by omega, hpin⟩

theorem coreStep_enters_mrSettle {s t : State} (hok : s.params.ok = true) (hs : s.ctl = .mrLow)
    (h : coreStep s = .next t) (hsettle : t.ctl = .mrSettle) :
    s.mrUntil ≤ s.env.now ∧ s.env.now.toNat + 2000000 ≤ t.mrUntil.toNat ∧ t.pins.resetN = true := by
  obtain ⟨-, hbound⟩ := params_ok_iff.1 hok
  rw [coreStep, hs] at h
  rcases whenReached_next h with ⟨due, hgo⟩ | ⟨-, rfl⟩
  · obtain ⟨huntil, hpin⟩ := moduleResetPhase_until hgo
    exact ⟨due, by omega, hpin⟩
  · cases hs.symm.trans hsettle

/-! ## The hold (R291) -/

/-- MODULE_RESET stays in its phase, and no operation presented is accepted. -/
def Holds (s t : State) : Prop :=
  t.ctl = s.ctl ∧ t.mrUntil = s.mrUntil ∧ t.pins = s.pins ∧ t.host = s.host ∧
    ∃ added, t.env.hostQueue = s.env.hostQueue ++ added

theorem step_holds_reset {s t : State} (hctl : s.ctl = .mrLow ∨ s.ctl = .mrSettle) (hlt : s.env.now < s.mrUntil)
    (hrst : s.env.agenda.head? ≠ some .rst) (h : step s = .next t) : Holds s t := by
  have hwait (more : List Turn) (hcore : coreStep { s with env.agenda := more } = .next t) : Holds s t := by
    cases hcore.symm.trans (coreStep_of_running_phase (s := { s with env.agenda := more }) hctl hlt)
    exact ⟨rfl, rfl, rfl, rfl, [], (List.append_nil _).symm⟩
  obtain ⟨-, ⟨-, hcore⟩ | ⟨a, more, hcons, hturn⟩⟩ := step_next h
  · exact hwait s.env.agenda hcore
  · by_cases ha : a = .core
    · subst ha
      exact hwait more hturn
    · obtain ⟨⟨added, hqueue, -⟩, -⟩ := PresentedOperations.turnStep_port ha hturn
      rcases turnStep_env_or_reset ha hturn with ⟨e, rfl⟩ | ⟨rfl, -⟩
      · exact ⟨rfl, rfl, rfl, rfl, added, hqueue⟩
      · exact absurd (by rw [hcons]; rfl) hrst

/-- Settles O48: the Core waits in both phases, each is entered with its bound, and the step tests the
configuration first. -/
theorem moduleResetHoldsOperations : Obligations.ModuleResetHoldsOperations := by
  unfold Obligations.ModuleResetHoldsOperations
  refine ⟨fun s t => step_holds_reset, fun s t hs h hlow => ?low, fun s t hs h hsettle => ?settle,
    fun s hbelow => if_neg fun hok => ?_⟩
  case low =>
    obtain ⟨more, hcore⟩ := coreStep_of_phase_change h (by simp [hs, hlow]) (by simp [hlow])
    exact coreStep_enters_mrLow (s := { s with env.agenda := more }) (step_next h).1 hs hcore hlow
  case settle =>
    obtain ⟨more, hcore⟩ := coreStep_of_phase_change h (by simp [hs, hsettle]) (by simp [hsettle])
    exact coreStep_enters_mrSettle (s := { s with env.agenda := more }) (step_next h).1 hs hcore hsettle
  · have hbounds := params_ok_iff.1 hok
    omega

end PinOperations
end Sys2Proof
end

section
/-! Strict and legacy mode (R262, R263): a step from two states that differ only in `corr_strict` gives states that
differ only there, but for the exhausted end of an attempt, where the results differ too. -/

namespace Sys2Proof
namespace StrictMode

open Machine Claims StateInvariants Correlation PresentedOperations

/-! ## The mode of a state -/

def withStrict (b : Bool) (s : State) : State := { s with corr.strict := b }

section WithStrict
variable (b : Bool) (s : State)

@[simp] theorem withStrict_host : (withStrict b s).host = s.host := rfl
@[simp] theorem withStrict_rsm : (withStrict b s).rsm = s.rsm := rfl
@[simp] theorem withStrict_queue : (withStrict b s).queue = s.queue := rfl
@[simp] theorem withStrict_ctl : (withStrict b s).ctl = s.ctl := rfl
@[simp] theorem withStrict_env : (withStrict b s).env = s.env := rfl
@[simp] theorem withStrict_params : (withStrict b s).params = s.params := rfl
@[simp] theorem countedHead_withStrict : countedHead (withStrict b s) = countedHead s := rfl
@[simp] theorem timeoutEnabled_withStrict : timeoutEnabled (withStrict b s) = timeoutEnabled s := rfl
@[simp] theorem withinOverrun_withStrict (n : Nat) : withinOverrun n (withStrict b s) = withinOverrun n s := rfl
@[simp] theorem arrivalOk_withStrict (u : Time) : arrivalOk u (withStrict b s) = arrivalOk u s := rfl
@[simp] theorem passesOverrun_withStrict (n : Nat) : passesOverrun n (withStrict b s) = passesOverrun n s := rfl
@[simp] theorem wrongLength_withStrict (f : DecodedFrame) :
    wrongLength (withStrict b s).corr f = wrongLength s.corr f := rfl

theorem endCorrelation_withStrict : endCorrelation (withStrict b s) = withStrict b (endCorrelation s) := by
  cases hctx : s.corr.ctx with
  | true => rw [endCorrelation_of_transaction hctx, endCorrelation_of_transaction (s := withStrict b s) hctx]; rfl
  | false => rw [endCorrelation_of_request hctx, endCorrelation_of_request (s := withStrict b s) hctx]; rfl

theorem finishMatched_withStrict (f : DecodedFrame) :
    finishMatched f (withStrict b s) = withStrict b (finishMatched f s) :=
  endCorrelation_withStrict b (writeResult (frameResult f false true) s)

theorem acceptStep_withStrict : acceptStep (withStrict b s) = withStrict b (acceptStep s) := by
  unfold acceptStep
  rw [withStrict_env]
  cases s.env.hostQueue <;> rfl

theorem txTakeTurn_withStrict : txTakeTurn (withStrict b s) = withStrict b (txTakeTurn s) := by
  unfold txTakeTurn
  rw [withStrict_env]
  cases s.env.tx <;> rfl

theorem startReceive_withStrict (w : Time) (e : Option Byte) (ph : CtlPhase) :
    startReceive w e ph (withStrict b s) = onNext (withStrict b) (startReceive w e ph s) := by
  unfold startReceive
  rw [withStrict_env]
  cases addTime s.env.now w <;> rfl

theorem moduleResetPhase_withStrict (v : Bool) (w : Time) (ph : CtlPhase) :
    moduleResetPhase v w ph (withStrict b s) = onNext (withStrict b) (moduleResetPhase v w ph s) := by
  unfold moduleResetPhase
  rw [withStrict_env]
  cases addTime s.env.now w <;> rfl

/-- Where no frame was observed, exhaustion is the same in both modes (R262). -/
theorem nextOrFinish_withStrict_of_no_last (hlast : s.corr.last = none) :
    nextOrFinish (withStrict b s) = onNext (withStrict b) (nextOrFinish s) := by
  by_cases hm : s.corr.remaining = 0#8
  · rw [nextOrFinish_of_exhausted hm, nextOrFinish_of_exhausted (s := withStrict b s) hm,
      finishExhausted_no_reply (.inr hlast), finishExhausted_no_reply (s := withStrict b s) (.inr hlast)]
    exact congrArg Host.Outcome.next (endCorrelation_withStrict b (ended (statusOnly 0x02#8) s))
  · rw [nextOrFinish_of_remaining hm, nextOrFinish_of_remaining (s := withStrict b s) hm]
    exact startReceive_withStrict b { s with corr.remaining := s.corr.remaining - 1#8 } _ _ _

/-! ## The first step of an operation -/

/-- A host operation keeps the mode or, as REQUEST_REPLY, sets it; it does nothing else with it (R260). -/
theorem exec_withStrict {i : Instr} (hhost : i.codeByte = none) :
    ∃ b', exec i (withStrict b s) = onNext (withStrict b') (exec i s) := by
  cases i with
  | requestReply c tm n m st =>
    exact ⟨st, nextOrFinish_withStrict_of_no_last st { s with corr := corrStart c tm n m st false } rfl⟩
  | check | wakeup | sleep => exact ⟨b, rfl⟩
  | encode | send =>
    refine ⟨b, ?_⟩
    simp only [exec, execEncode, execSend]
    split_ifs <;> rfl
  | dequeue =>
    refine ⟨b, ?_⟩
    dsimp only [exec]
    unfold execDequeue
    rw [withStrict_queue]
    split_ifs <;> rfl
  | receive tm e => exact ⟨b, startReceive_withStrict b s _ _ _⟩
  | pollIndication tm =>
    refine ⟨b, ?_⟩
    dsimp only [exec]
    unfold execPollIndication
    rw [withStrict_queue]
    split_ifs
    · exact startReceive_withStrict b (pinWriteWake false s) _ _ _
    · rfl
  | transaction =>
    refine ⟨b, ?_⟩
    simp only [exec, execTransaction, withStrict_env, withStrict_params]
    split_ifs
    · rfl
    · cases addTime s.env.now s.params.tWake <;> rfl
  | moduleReset => exact ⟨b, moduleResetPhase_withStrict b s _ _ _⟩
  | _ => cases hhost

theorem idlePhaseStep_withStrict :
    ∃ b', idlePhaseStep (withStrict b s) = onNext (withStrict b') (idlePhaseStep s) := by
  unfold idlePhaseStep runOp
  rw [withStrict_host, acceptStep_withStrict]
  split_ifs
  · cases hop : decodeOp s.host.curOp with
    | ok i => exact exec_withStrict b s (codeByte_of_decodeOp hop)
    | error e =>
      refine ⟨b, ?_⟩
      simp only [illegalStep]
      split_ifs <;> rfl
  · exact ⟨b, rfl⟩

/-- TRANSACTION sets the mode when its correlation starts (R270). -/
theorem transactionTransmit_withStrict :
    ∃ b', transactionTransmit (withStrict b s) = onNext (withStrict b') (transactionTransmit s) := by
  unfold transactionTransmit
  rw [withStrict_host]
  split
  · rename_i c p tm n m st _
    exact ⟨st, nextOrFinish_withStrict_of_no_last st
      { txWrite (frame c p) s with corr := corrStart c tm n m st true } rfl⟩
  · exact ⟨b, rfl⟩

/-- A wait keeps the mode; what runs at its end may set it. -/
theorem whenReached_withStrict {go : State → Host.Outcome State Fault Refusal} {b' : Bool}
    (hgo : go (withStrict b s) = onNext (withStrict b') (go s)) (u : Time) :
    whenReached u go (withStrict b s) =
      onNext (withStrict (if u ≤ s.env.now then b' else b)) (whenReached u go s) := by
  unfold whenReached
  rw [withStrict_env]
  split_ifs
  · exact hgo
  · rfl

/-- Outside the receive phases the mode is not read: it stays, or the start of a correlation sets it. -/
theorem coreStep_withStrict (hrecv : s.ctl.receiving = false) :
    ∃ b', coreStep (withStrict b s) = onNext (withStrict b') (coreStep s) ∧
      (s.ctl ≠ .idle → s.ctl ≠ .trWake → b' = b) := by
  have hwait {go : State → Host.Outcome State Fault Refusal}
      (hgo : go (withStrict b s) = onNext (withStrict b) (go s)) :
      whenReached s.mrUntil go (withStrict b s) = onNext (withStrict b) (whenReached s.mrUntil go s) := by
    rw [whenReached_withStrict b s hgo, ite_self]
  unfold coreStep
  rw [withStrict_ctl]
  cases hctl : s.ctl with
  | idle =>
    obtain ⟨b', h⟩ := idlePhaseStep_withStrict b s
    exact ⟨b', h, fun hne => absurd rfl hne⟩
  | trWake =>
    obtain ⟨b', h⟩ := transactionTransmit_withStrict b s
    exact ⟨_, whenReached_withStrict b s h s.twUntil, fun _ hne => absurd rfl hne⟩
  | mrLow =>
    exact ⟨b, hwait (go := moduleResetRelease) (moduleResetPhase_withStrict b s _ _ _), fun _ _ => rfl⟩
  | mrSettle => exact ⟨b, hwait (go := moduleResetDone) rfl, fun _ _ => rfl⟩
  | receive | rrAttempt | pollReceive => rw [hctl] at hrecv; cases hrecv

end WithStrict

/-! ## The end of an attempt -/

/-- How the Core's step compares from two states in the phase `ctl` that differ in the mode, the second being in mode
`b`: it stops alike, or gives states that differ in the mode, and in the results of an exhausted end.
`results` are those written before the step. -/
inductive ModeAlike (b : Bool) (ctl : CtlPhase) (results : List Result) :
    Host.Outcome State Fault Refusal → Host.Outcome State Fault Refusal → Prop
  /-- The mode stays, unless the step may start a correlation; an attempt that ends has matched. -/
  | next (b' : Bool) (t : State) (mode : ctl ≠ .idle → ctl ≠ .trWake → b' = b)
      (matched : ctl = .rrAttempt → t.ctl = .idle → t.host.result.matched = true) :
      ModeAlike b ctl results (.next t) (.next (withStrict b' t))
  /-- An attempt ends exhausted (R262). -/
  | exhausted (u : State) (hctl : ctl = .rrAttempt) (same : u.log.results = results) :
      ModeAlike b ctl results (.next (finishExhausted u)) (.next (finishExhausted (withStrict b u)))
  | fault (f : Fault) : ModeAlike b ctl results (.fault f) (.fault f)
  | refused (r : Refusal) : ModeAlike b ctl results (.refused r) (.refused r)

theorem modeAlike_of_onNext {b b' : Bool} {ctl : CtlPhase} {results : List Result}
    {o o' : Host.Outcome State Fault Refusal} (h : o' = onNext (withStrict b') o)
    (mode : ctl ≠ .idle → ctl ≠ .trWake → b' = b)
    (matched : ∀ t, o = .next t → ctl = .rrAttempt → t.ctl = .idle → t.host.result.matched = true) :
    ModeAlike b ctl results o o' := by
  subst h
  cases o with
  | next t => exact .next b' t mode (matched t rfl)
  | fault f => exact .fault f
  | refused r => exact .refused r

theorem modeAlike_same {ctl : CtlPhase} {results : List Result} (b : Bool) {t : State}
    (hctl : t.ctl = ctl) : ModeAlike b ctl results (.next t) (.next (withStrict b t)) := by
  refine .next b t (fun _ _ => rfl) fun hattempt hidle => ?_
  cases hidle.symm.trans (hctl.trans hattempt)

section Attempts
variable (b : Bool) (s : State)

theorem modeAlike_nextOrFinish :
    ModeAlike b .rrAttempt s.log.results (nextOrFinish s) (nextOrFinish (withStrict b s)) := by
  by_cases hm : s.corr.remaining = 0#8
  · rw [nextOrFinish_of_exhausted hm, nextOrFinish_of_exhausted (s := withStrict b s) hm]
    exact .exhausted s rfl rfl
  · rw [nextOrFinish_of_remaining hm, nextOrFinish_of_remaining (s := withStrict b s) hm]
    refine modeAlike_of_onNext
      (startReceive_withStrict b { s with corr.remaining := s.corr.remaining - 1#8 } _ _ _)
      (fun _ _ => rfl) fun t h _ hidle => ?_
    obtain ⟨d, -, rfl⟩ := startReceive_next h
    cases hidle

theorem modeAlike_attemptIndication (f : DecodedFrame) :
    ModeAlike b .rrAttempt s.log.results (attemptIndication f s) (attemptIndication f (withStrict b s)) := by
  unfold attemptIndication
  rw [withStrict_params]
  split_ifs
  · exact modeAlike_nextOrFinish b (enqueue f { s with corr.last := some f })
  · exact modeAlike_nextOrFinish b (enqueue f s)

theorem modeAlike_attemptEnd (o : RsmOutcome) :
    ModeAlike b .rrAttempt s.log.results (attemptEnd o s) (attemptEnd o (withStrict b s)) := by
  cases o with
  | timedOut => exact modeAlike_nextOrFinish b s
  | frame f ind =>
    unfold attemptEnd
    dsimp only
    rw [wrongLength_withStrict, finishMatched_withStrict]
    split_ifs
    · exact modeAlike_attemptIndication b s f
    · exact modeAlike_nextOrFinish b { s with corr.last := some f }
    · exact .next b _ (fun _ _ => rfl) fun _ _ => by simp [finishMatched, frameResult]

/-! ## The receive phases -/

theorem modeAlike_deliver (o : RsmOutcome) :
    ModeAlike b s.ctl s.log.results (deliver o s) (deliver o (withStrict b s)) := by
  unfold deliver
  rw [withStrict_ctl]
  cases s.ctl with
  | rrAttempt => exact modeAlike_attemptEnd b s o
  | receive | pollReceive => exact .next b _ (fun _ _ => rfl) nofun
  | idle | trWake | mrLow | mrSettle => exact .fault _

theorem modeAlike_applyRsm (st : RsmStep) :
    ModeAlike b s.ctl s.log.results (applyRsm st s) (applyRsm st (withStrict b s)) := by
  unfold applyRsm
  cases st.outcome with
  | none => exact modeAlike_same b rfl
  | some o => exact modeAlike_deliver b (record st.events { s with rsm := st.rsm }) o

theorem modeAlike_receiveWait :
    ModeAlike b s.ctl s.log.results (receiveWait s) (receiveWait (withStrict b s)) := by
  unfold receiveWait timeoutStep
  rw [timeoutEnabled_withStrict, withStrict_env, withinOverrun_withStrict]
  split_ifs
  · exact modeAlike_applyRsm b s (rsmTimeout s.rsm)
  · exact .refused _
  · exact modeAlike_same b rfl

theorem modeAlike_receivePhaseStep :
    ModeAlike b s.ctl s.log.results (receivePhaseStep s) (receivePhaseStep (withStrict b s)) := by
  unfold receivePhaseStep
  rw [countedHead_withStrict, withStrict_rsm]
  split_ifs
  · exact .fault _
  · cases countedHead s with
    | none => exact modeAlike_receiveWait b s
    | some x =>
      dsimp only
      rw [receiveByte_eq, receiveByte_eq]
      exact modeAlike_applyRsm b (rxPop s) (rsmByte x s.rsm)

/-! ## Every step -/

theorem modeAlike_coreStep : ModeAlike b s.ctl s.log.results (coreStep s) (coreStep (withStrict b s)) := by
  cases hrecv : s.ctl.receiving with
  | true =>
    rw [ReceiveTurns.coreStep_of_receiving hrecv, ReceiveTurns.coreStep_of_receiving (s := withStrict b s) hrecv]
    exact modeAlike_receivePhaseStep b s
  | false =>
    obtain ⟨b', h, hmode⟩ := coreStep_withStrict b s hrecv
    refine modeAlike_of_onNext h hmode fun t _ hattempt _ => ?_
    rw [hattempt] at hrecv
    cases hrecv

/-- No other agent but the reset input reads or changes the mode (R6, R420). -/
theorem turnStep_withStrict {a : Turn} (hcore : a ≠ .core) (hrst : a ≠ .rst) :
    turnStep a (withStrict b s) = onNext (withStrict b) (turnStep a s) := by
  cases a with
  | core => exact absurd rfl hcore
  | rst => exact absurd rfl hrst
  | host op => dsimp only [turnStep]; unfold hostTurn; split_ifs <;> rfl
  | rx x u => dsimp only [turnStep]; unfold rxTurn; rw [arrivalOk_withStrict]; split_ifs <;> rfl
  | txTake => exact congrArg Host.Outcome.next (txTakeTurn_withStrict b s)
  | time n =>
    dsimp only [turnStep]
    unfold timeTurn
    rw [withStrict_env, passesOverrun_withStrict]
    split_ifs <;> rfl

theorem modeAlike_turnStep {a : Turn} (hrst : a ≠ .rst) :
    ModeAlike b s.ctl s.log.results (turnStep a s) (turnStep a (withStrict b s)) := by
  by_cases hcore : a = .core
  · subst hcore
    exact modeAlike_coreStep b s
  · refine modeAlike_of_onNext (turnStep_withStrict b s hcore hrst) (fun _ _ => rfl) fun t h hattempt hidle => ?_
    rcases turnStep_env_or_reset hcore h with ⟨e, rfl⟩ | ⟨hreset, -⟩
    · cases hidle.symm.trans hattempt
    · exact absurd hreset hrst

theorem modeAlike_step (hrst : s.env.agenda.head? ≠ some .rst) :
    ModeAlike b s.ctl s.log.results (step s) (step (withStrict b s)) := by
  unfold step
  rw [withStrict_params, withStrict_env]
  split_ifs
  · cases hagenda : s.env.agenda with
    | nil => exact modeAlike_coreStep b s
    | cons a more =>
      have ha : a ≠ .rst := fun h => hrst (by rw [hagenda, h]; rfl)
      exact modeAlike_turnStep b { s with env.agenda := more } ha
  · exact .refused _

/-- The block reset gives the mode its reset value (R70, R420). -/
theorem step_withStrict_of_rst (hrst : s.env.agenda.head? = some .rst) : step (withStrict b s) = step s := by
  obtain ⟨more, hagenda⟩ := List.head?_eq_some_iff.1 hrst
  unfold step
  rw [withStrict_params, withStrict_env, hagenda]
  rfl

end Attempts

/-! ## What the comparison says (R263) -/

theorem exhaustedResult_matched (c : Corr) : (exhaustedResult c).matched = false := by
  unfold exhaustedResult
  split
  · rfl
  · split <;> rfl

/-- Exhausted ends in the two modes differ in the result and its record. -/
theorem finishExhausted_withStrict (b : Bool) (u : State) :
    finishExhausted (withStrict b u) =
      { finishExhausted u with
        corr.strict := b
        host.result := (finishExhausted (withStrict b u)).host.result
        log.results := u.log.results ++ [(finishExhausted (withStrict b u)).host.result] } := by
  unfold finishExhausted
  cases hctx : u.corr.ctx with
  | true => rw [endCorrelation_of_transaction (by exact hctx), endCorrelation_of_transaction (by exact hctx)]; rfl
  | false => rw [endCorrelation_of_request (by exact hctx), endCorrelation_of_request (by exact hctx)]; rfl

/-- The statement of R263 about a step from `s` to `t`, and the step to `t'` in mode `b`. -/
def DiffersAtExhaustion (b : Bool) (s t t' : State) : Prop :=
  (¬ finishesExhausted s t →
    t' = { t with corr.strict := t'.corr.strict } ∧
    (s.ctl ≠ .idle → s.ctl ≠ .trWake → s.env.agenda.head? ≠ some .rst → t'.corr.strict = b)) ∧
  (finishesExhausted s t →
    t'.corr.strict = b ∧
    t' = { t with
      corr.strict := b
      host.result := t'.host.result
      log.results := s.log.results ++ [t'.host.result] })

theorem differsAtExhaustion_of_mode {b b' : Bool} {s t : State}
    (mode : s.ctl ≠ .idle → s.ctl ≠ .trWake → b' = b)
    (matched : s.ctl = .rrAttempt → t.ctl = .idle → t.host.result.matched = true) :
    DiffersAtExhaustion b s t (withStrict b' t) := by
  refine ⟨fun _ => ⟨rfl, fun hidle hwake _ => mode hidle hwake⟩, ?_⟩
  rintro ⟨hattempt, -, hidle, hmiss⟩
  cases (matched hattempt hidle).symm.trans hmiss

theorem differsAtExhaustion_of_exhausted {b : Bool} {s u : State} (hctl : s.ctl = .rrAttempt)
    (hrst : s.env.agenda.head? ≠ some .rst) (same : u.log.results = s.log.results) :
    DiffersAtExhaustion b s (finishExhausted u) (finishExhausted (withStrict b u)) := by
  have hexhausted : finishesExhausted s (finishExhausted u) :=
    ⟨hctl, hrst, rfl, by simp [finishExhausted, exhaustedResult_matched]⟩
  refine ⟨fun hnot => absurd hexhausted hnot, fun _ => ⟨by simp [finishExhausted, withStrict], ?_⟩⟩
  rw [← same]
  exact finishExhausted_withStrict b u

theorem differsAtExhaustion_of_same {b : Bool} {s t : State} (hrst : s.env.agenda.head? = some .rst) :
    DiffersAtExhaustion b s t t :=
  ⟨fun _ => ⟨rfl, fun _ _ hne => absurd hrst hne⟩, fun ⟨_, hne, _⟩ => absurd hrst hne⟩

/-- The statement of R263 about the outcomes of a step from `s` and of the step in mode `b`. -/
def OutcomesDifferAtExhaustion (b : Bool) (s : State) (o o' : Host.Outcome State Fault Refusal) : Prop :=
  (∀ t, o = .next t → ∃ t', o' = .next t' ∧ DiffersAtExhaustion b s t t') ∧
  (∀ r, o = .refused r → o' = .refused r) ∧
  (∀ f, o = .fault f → o' = .fault f)

theorem outcomesDiffer_of_modeAlike {b : Bool} {s : State} {o o' : Host.Outcome State Fault Refusal}
    (hrst : s.env.agenda.head? ≠ some .rst) (h : ModeAlike b s.ctl s.log.results o o') :
    OutcomesDifferAtExhaustion b s o o' := by
  cases h with
  | next b' t mode matched =>
    refine ⟨?_, nofun, nofun⟩
    rintro _ ⟨⟩
    exact ⟨_, rfl, differsAtExhaustion_of_mode mode matched⟩
  | exhausted u hctl same =>
    refine ⟨?_, nofun, nofun⟩
    rintro _ ⟨⟩
    exact ⟨_, rfl, differsAtExhaustion_of_exhausted hctl hrst same⟩
  | fault f => exact ⟨fun _ h => (nomatch h), nofun, fun _ => id⟩
  | refused r => exact ⟨fun _ h => (nomatch h), fun _ => id, nofun⟩

theorem step_outcomesDiffer (s : State) (b : Bool) :
    OutcomesDifferAtExhaustion b s (step s) (step (withStrict b s)) := by
  by_cases hrst : s.env.agenda.head? = some .rst
  · rw [step_withStrict_of_rst b s hrst]
    exact ⟨fun t h => ⟨t, h, differsAtExhaustion_of_same hrst⟩, fun _ => id, fun _ => id⟩
  · exact outcomesDiffer_of_modeAlike hrst (modeAlike_step b s hrst)

/-! ## `STRICT` of an operation (R263, R270) -/

/-- A correlation that starts in the other mode goes on alike (R262). -/
theorem nextOrFinish_next_withStrict {u t : State} (hlast : u.corr.last = none) (h : nextOrFinish u = .next t)
    (b : Bool) : nextOrFinish (withStrict b u) = .next (withStrict b t) := by
  rw [nextOrFinish_withStrict_of_no_last b u hlast, h]
  rfl

theorem exec_requestReply_strict {c : Byte} {tm : BitVec 32} {n : Option Byte} {m : Byte} {st : Bool} {s t : State}
    (h : exec (.requestReply c tm n m st) s = .next t) (st' : Bool) :
    exec (.requestReply c tm n m st') s = .next { t with corr.strict := st' } :=
  nextOrFinish_next_withStrict (u := { s with corr := corrStart c tm n m st false }) rfl h st'

def withCurOp (op : HostOp) (s : State) : State := { s with host.curOp := op }

theorem endCorrelation_withCurOp (op : HostOp) (s : State) :
    endCorrelation (withCurOp op s) = withCurOp op (endCorrelation s) := by
  cases hctx : s.corr.ctx with
  | true => rw [endCorrelation_of_transaction hctx, endCorrelation_of_transaction (s := withCurOp op s) hctx]; rfl
  | false => rw [endCorrelation_of_request hctx, endCorrelation_of_request (s := withCurOp op s) hctx]; rfl

/-- A correlation does not read `cur_op` (R31). -/
theorem nextOrFinish_withCurOp (op : HostOp) (s : State) :
    nextOrFinish (withCurOp op s) = onNext (withCurOp op) (nextOrFinish s) := by
  by_cases hm : s.corr.remaining = 0#8
  · rw [nextOrFinish_of_exhausted hm, nextOrFinish_of_exhausted (s := withCurOp op s) hm]
    exact congrArg Host.Outcome.next (endCorrelation_withCurOp op (writeResult (exhaustedResult s.corr) s))
  · rw [nextOrFinish_of_remaining hm, nextOrFinish_of_remaining (s := withCurOp op s) hm, startReceive, startReceive]
    dsimp only [withCurOp]
    cases addTime s.env.now (timeoutTime s.corr.timeout) <;> rfl

theorem transactionTransmit_strict {c : Byte} {p : List Byte} {tm : BitVec 32} {n : Option Byte} {m : Byte}
    {st st' : Bool} {s t : State} {op : HostOp}
    (hop : decodeOp s.host.curOp = .ok (.transaction c p tm n m st))
    (hop' : decodeOp op = .ok (.transaction c p tm n m st')) (h : transactionTransmit s = .next t) :
    transactionTransmit { s with host.curOp := op } =
      .next { t with host.curOp := op, corr.strict := st' } := by
  rw [AwakeWindow.transactionTransmit_of_decode hop] at h
  rw [AwakeWindow.transactionTransmit_of_decode (s := { s with host.curOp := op }) hop']
  have hcur := nextOrFinish_withCurOp op { txWrite (frame c p) s with corr := corrStart c tm n m st true }
  rw [h] at hcur
  exact nextOrFinish_next_withStrict rfl hcur st'

theorem step_trWake_strict {c : Byte} {p : List Byte} {tm : BitVec 32} {n : Option Byte} {m : Byte}
    {st st' : Bool} {s t : State} {op : HostOp} (hnext : coreNext s) (hctl : s.ctl = .trWake)
    (hop : decodeOp s.host.curOp = .ok (.transaction c p tm n m st))
    (hop' : decodeOp op = .ok (.transaction c p tm n m st')) (h : step s = .next t) :
    ∃ b', step { s with host.curOp := op } = .next { t with host.curOp := op, corr.strict := b' } ∧
      (s.twUntil ≤ s.env.now → b' = st') := by
  rw [AwakeWindow.step_of_trWake hnext hctl] at h
  rw [AwakeWindow.step_of_trWake (s := { s with host.curOp := op }) hnext hctl]
  rcases whenReached_next h with ⟨due, hgo⟩ | ⟨hearly, rfl⟩
  · refine ⟨st', ?_, fun _ => rfl⟩
    rw [whenReached_of_le (by exact due)]
    exact transactionTransmit_strict hop hop' hgo
  · refine ⟨t.corr.strict, ?_, fun due => absurd hearly (BitVec.not_lt.2 due)⟩
    rw [AwakeWindow.whenReached_of_lt (by exact hearly)]

/-- Settles O40: exhaustion tests the mode, no other step reads it, and an operation sets it as its correlation
starts. -/
theorem strictModeDiffersOnlyAtExhaustion : Obligations.StrictModeDiffersOnlyAtExhaustion := by
  unfold Obligations.StrictModeDiffersOnlyAtExhaustion
  refine ⟨fun s hstrict => ?strict, step_outcomesDiffer,
    fun c p tm n m st st' s t => ⟨fun h => exec_requestReply_strict h st', rfl,
      fun op hnext hctl hop hop' h => step_trWake_strict hnext hctl hop hop' h⟩⟩
  case strict =>
    rw [finishExhausted_no_reply (.inl hstrict), endCorrelation_host]
    rfl

end StrictMode
end Sys2Proof
end

section
/-! The Command Façade's side of the block boundary (R310 to R320, R330 to R333): the bounds that each call's
arguments must meet, the TRANSACTION that a call becomes, and what a matched reply decodes to. -/

namespace Sys2Proof
namespace FacadeCalls

open Machine Claims

/-! ## The bounds of the arguments (R311, R312, R318 to R320) -/

theorem eepromWrite_argsOk_iff {a n : Nat} {p : List Byte} :
    (FacadeCall.eepromWrite a n p).argsOk = true ↔ a ≤ 255 ∧ a + n ≤ 256 := decide_eq_true_iff

theorem eepromRead_argsOk_iff {a n : Nat} {p : List Byte} :
    (FacadeCall.eepromRead a n p).argsOk = true ↔ a ≤ 255 ∧ a + n ≤ 256 := decide_eq_true_iff

theorem setAppKey_argsOk_iff {k : List Byte} :
    (FacadeCall.setAppKey k).argsOk = true ↔ k.length = 16 := decide_eq_true_iff

theorem txMsg_argsOk_iff {port : Nat} {confirmed : Bool} {d : List Byte} :
    (FacadeCall.txMsg port confirmed d).argsOk = true ↔ 1 ≤ port ∧ port ≤ 223 ∧ d.length ≤ 209 :=
  decide_eq_true_iff

theorem setChParameters_argsOk_iff {ch f lo hi : Nat} {p : List Byte} :
    (FacadeCall.setChParameters ch f lo hi p).argsOk = true ↔
      (3 ≤ ch ∧ ch ≤ 15) ∧ Config.chParamsOk f lo hi = true := by
  rw [FacadeCall.argsOk, Bool.and_eq_true, decide_eq_true_iff]

/-! ## What a call issues (R330, R125, R126) -/

section Issue

variable {pr : Params} {tm : BitVec 32} {c : FacadeCall}

theorem facadeIssue_of_not_argsOk (h : ¬ c.argsOk = true) : facadeIssue pr tm c = .error 0x03#8 := by
  rw [facadeIssue, if_neg h]
  rfl

theorem issues_of_argsOk (h : c.argsOk = true) : issues pr tm c c.cmd c.payload (c.expectedLen pr) := by
  rw [issues, facadeIssue, if_pos h]
  rfl

end Issue

/-- Two bytes lead a 0x46 request, in either order of the port and the selector (R319). -/
theorem length_txLead (port : Nat) (confirmed : Bool) : (txLead port confirmed).length = 2 := by
  unfold txLead
  cases Config.txPortFirst <;> rfl

/-- Where the port and the confirmed selector are the same byte, their open order does not matter (R319). -/
theorem txLead_one_confirmed : txLead 1 true = [0x01#8, 0x01#8] := by
  unfold txLead
  cases Config.txPortFirst <;> rfl

/-! ## What a reply decodes to (R313 to R317, R331 to R333) -/

theorem facadeReply_of_matched {pr : Params} {c : FacadeCall} {r : Result} {f : DecodedFrame}
    (hmatched : r.matched = true) (hframe : r.frame = some f) :
    facadeReply pr c r = c.decodeReply f.payload := by
  have hvalid : replyValid pr c r = true := by rw [replyValid, hmatched, Bool.true_or]
  rw [facadeReply, if_pos hvalid, hframe]

theorem leNat_four_bytes (b0 b1 b2 b3 : Byte) :
    leNat [b0, b1, b2, b3] =
      b0.toNat + 256 * b1.toNat + 65536 * b2.toNat + 16777216 * b3.toNat := by
  simp only [leNat]
  omega

theorem getFwVersion_decodeReply_four (b0 b1 b2 b3 : Byte) :
    FacadeCall.getFwVersion.decodeReply [b0, b1, b2, b3] =
      some (.number (b0.toNat + 256 * b1.toNat + 65536 * b2.toNat + 16777216 * b3.toNat)) := by
  rw [← leNat_four_bytes]
  rfl

theorem getSerialNo_decodeReply_four (b0 b1 b2 b3 : Byte) :
    FacadeCall.getSerialNo.decodeReply [b0, b1, b2, b3] =
      some (.number (b0.toNat + 256 * b1.toNat + 65536 * b2.toNat + 16777216 * b3.toNat)) :=
  getFwVersion_decodeReply_four b0 b1 b2 b3

theorem getDevEui_decodeReply_eight {e : List Byte} (h : e.length = 8) :
    FacadeCall.getDevEui.decodeReply e = some (.eui e.reverse) := by
  rw [FacadeCall.decodeReply, List.take_of_length_le h.le]

/-- The six commands whose reply begins with a status byte (R310, R311, R316, R318 to R320, R331). -/
theorem decodeReply_of_status_cmd {c : FacadeCall}
    (h : c.cmd ∈ [0x30#8, 0x32#8, 0x40#8, 0x43#8, 0x46#8, 0x57#8]) (b : Byte) (pl : List Byte) :
    c.decodeReply (b :: pl) = some (.status (decide (b = 0x00#8))) := by
  cases c with
  | moduleReset | eepromWrite | join | setAppKey | txMsg | setChParameters => rfl
  | eepromRead | getFwVersion | getSerialNo | getDevEui | getActivationStatus =>
    simp [FacadeCall.cmd] at h

theorem cmd_eq_activationStatus {c : FacadeCall} (h : c.cmd = 0x42#8) :
    ∃ p, c = .getActivationStatus p := by
  cases c with
  | getActivationStatus p => exact ⟨p, rfl⟩
  | _ => simp [FacadeCall.cmd] at h

/-! ## The boundary -/

/-- Settles O60: the bounds decide whether a call issues its TRANSACTION, and a matched reply is decoded from
its payload. -/
theorem facadeBoundary : Obligations.FacadeBoundary := by
  unfold Obligations.FacadeBoundary
  refine ⟨fun pr tm => ⟨?window, ?key, ?message, ?channel⟩, fun pr tm p => ?issued,
    fun pr b0 b1 b2 b3 e r hmatched => ⟨?version, ?serial, ?eui, fun c n hframe => ⟨?status, ?activation⟩⟩⟩
  case window =>
    intro a n p hout
    have hnot : ¬ (a ≤ 255 ∧ a + n ≤ 256) := by omega
    exact ⟨facadeIssue_of_not_argsOk (mt eepromWrite_argsOk_iff.1 hnot),
      facadeIssue_of_not_argsOk (mt eepromRead_argsOk_iff.1 hnot)⟩
  case key =>
    intro k hlen
    exact facadeIssue_of_not_argsOk (mt setAppKey_argsOk_iff.1 hlen)
  case message =>
    intro port c d hout
    exact facadeIssue_of_not_argsOk (mt txMsg_argsOk_iff.1 (by omega))
  case channel =>
    intro ch f lo hi p hout
    exact facadeIssue_of_not_argsOk fun hok => by
      have := (setChParameters_argsOk_iff.1 hok).1
      omega
  case issued =>
    refine ⟨issues_of_argsOk rfl, fun a n ha hn => ⟨issues_of_argsOk (eepromWrite_argsOk_iff.2 ⟨ha, hn⟩),
        issues_of_argsOk (eepromRead_argsOk_iff.2 ⟨ha, hn⟩)⟩,
      issues_of_argsOk rfl, issues_of_argsOk rfl, issues_of_argsOk rfl, issues_of_argsOk rfl,
      issues_of_argsOk rfl, fun k hlen => issues_of_argsOk (setAppKey_argsOk_iff.2 hlen), ?message,
      fun ch f lo hi hlow hhigh => ?channel⟩
    case message =>
      intro port c d hlow hhigh hlen
      have hissued := issues_of_argsOk (pr := pr) (tm := tm)
        (txMsg_argsOk_iff (confirmed := c).2 ⟨hlow, hhigh, hlen⟩)
      refine ⟨⟨txLead port c, length_txLead port c, hissued⟩, ?_⟩
      rintro rfl rfl
      rw [← txLead_one_confirmed]
      exact hissued
    case channel =>
      split
      next hparams => exact issues_of_argsOk (setChParameters_argsOk_iff.2 ⟨⟨hlow, hhigh⟩, hparams⟩)
      next hparams =>
        exact facadeIssue_of_not_argsOk fun hok => hparams (setChParameters_argsOk_iff.1 hok).2
  case version =>
    intro hframe
    rw [facadeReply_of_matched hmatched hframe, getFwVersion_decodeReply_four]
  case serial =>
    intro hframe
    rw [facadeReply_of_matched hmatched hframe, getSerialNo_decodeReply_four]
  case eui =>
    intro hlen hframe
    rw [facadeReply_of_matched hmatched hframe, getDevEui_decodeReply_eight hlen]
  case status =>
    intro hcmd
    rw [facadeReply_of_matched hmatched hframe, decodeReply_of_status_cmd hcmd]
  case activation =>
    intro hcmd
    obtain ⟨p, rfl⟩ := cmd_eq_activationStatus hcmd
    rw [facadeReply_of_matched hmatched hframe]
    rfl

end FacadeCalls
end Sys2Proof
end

section
/-! The turn of the block's reset input (R70, R420): the registers start again where the reset state has them,
and the environment, the configuration and the history go on. -/

namespace Sys2Proof
namespace BlockResetTurn

open Machine Claims StateInvariants

/-- The reset is one step, taken whatever the Core is doing (R420). -/
theorem step_of_rst {s : State} {more : List Turn} (hok : s.params.ok = true)
    (hagenda : s.env.agenda = .rst :: more) : step s = .next (blockReset { s with env.agenda := more }) :=
  step_of_agenda_cons hok hagenda

/-- Settles O57: the registers after the reset are those of the reset state, whose values of R70 O59 gives. -/
theorem blockResetStep : Obligations.BlockResetStep := by
  unfold Obligations.BlockResetStep
  intro s more hok hagenda
  refine ⟨_, step_of_rst hok hagenda, ?_⟩
  obtain ⟨-, -, hbusy, hvalid, hstatus, hframe, hind, hmatched, hcheck, hout, hcount, hhead, hphase, hctl,
    hwake, hreset⟩ := resetStateIsSound
  rw [blockReset_host, blockReset_rsm, blockReset_queue, blockReset_ctl, blockReset_pins, blockReset_env,
    blockReset_params, blockReset_log]
  exact ⟨hbusy, hvalid, hstatus, hframe, hind, hmatched, hcheck, hout, hphase, hhead, hcount, hctl, hwake,
    hreset, rfl, rfl, rfl, rfl⟩

end BlockResetTurn
end Sys2Proof
end
